-- ==== Sys2Proof/Word.lean ====
section
/-! DEFINITION. The words and the two one-bit choices of the block (spec/00_scope.md R4 to R6). -/

namespace Sys2Proof

/-- One byte of a byte array (R6). -/
abbrev Byte := BitVec 8

/-- A CAN identifier, `ID_W` = 11 bits, 0 to 0x7FF (R4). -/
abbrev CanId := BitVec 11

/-- A 32-bit word: timeout, clock and bit rate (`TMO_W`, `CLK_W`, `BR_W` of R5). -/
abbrev Word32 := BitVec 32

/-- A decoded value, `VAL_W` = 64 bits, unsigned (R4); also the 64-bit carrier of eight bytes (R52). -/
abbrev Value := BitVec 64

/-- A host command word, `CW_W` = 128 bits (R5, R80). -/
abbrev CmdWord := BitVec 128

/-- A byte array of eight bytes, byte 0 first (R6, R65). -/
abbrev Bytes := Vector Byte 8

/-- The frame kind, the remote/data flag of a CAN frame (R12, R65). -/
inductive Kind where
  | data
  | remote
deriving DecidableEq, Repr, Inhabited

/-- The poll mode (R12, R26). -/
inductive Mode where
  | queryResponse
  | passiveListen
deriving DecidableEq, Repr, Inhabited

end Sys2Proof
end

