-- ==== Sys2Proof/Config.lean ====
section
/-! DEFINITION. The constants the spec fixes (R4), the parameters it leaves open (R5), the values the outside
supplies (R36, R190), and the free draws of those values (93_implementation_defined.md U4). -/

namespace Sys2Proof

/-- `SENTINEL`: all ones, "no valid response" (R4, R217). -/
def SENTINEL : Value := 0xFFFFFFFFFFFFFFFF#64

/-- `MASK_EXACT`: the comparison mask of every filter entry the block installs (R4). -/
def MASK_EXACT : CanId := 0x7FF#11

/-- `MAX_LEN`: the largest payload length in bytes (R4). -/
def MAX_LEN : Nat := 8

/-- A frame `{id, kind, len, data}` (R65): of `data` only bytes 0 to `len - 1` are meaningful. -/
structure Frame where
  id   : CanId
  kind : Kind
  len  : BitVec 4
  data : Bytes
deriving DecidableEq, Repr, Inhabited

/-- The input ports a sequencer step may look at (R190), as they are in that step. `cmd` is `cmd_word` where
`cmd_valid` = 1 and `none` where `cmd_valid` = 0. Which step looks at which port is said by the step rules. -/
structure Inputs where
  cmd       : Option CmdWord
  beginDone : Bool
  beginOk   : Bool
  errStatus : BitVec 8
  now       : Word32
deriving DecidableEq, Repr, Inhabited

/-- What happens next to the block (R8, R240): the reset input is asserted, one frame is delivered to the arrival
port, or the sequencer takes one step with the given inputs. Any interleaving is possible. -/
inductive Event where
  | reset
  | arrive (f : Frame)
  | step (inp : Inputs)
deriving DecidableEq, Repr, Inhabited

/-- Which of the three events a free draw is. -/
inductive EventKind where
  | reset
  | arrive
  | step
deriving DecidableEq, Repr, Inhabited

/-- The parameters the source leaves open (R5). `NFILT` and `RXQ_DEPTH` are at least 1, so each is held as its
predecessor; `DIAG_LEN` is at most 8. -/
structure Params where
  nfiltPred    : Nat
  rxqDepthPred : Nat
  diagKind     : Kind
  diagLen      : Fin 9
  diagData     : Bytes
deriving DecidableEq, Repr, Inhabited

/-- `NFILT`, the capacity of the filter table in entries, at least 1 (R5). -/
def Params.nfilt (p : Params) : Nat := p.nfiltPred + 1

/-- `RXQ_DEPTH`, the capacity of the receive queue in frames, at least 1 (R5). -/
def Params.rxqDepth (p : Params) : Nat := p.rxqDepthPred + 1

/-- The parameters of the block this model is about. They are open in the spec (U9, U10), so nothing says what they
are: a theorem about `step` holds for every choice (notes/assumptions/5.md). -/
opaque Config.params : Params

/-- Free draw `n` of what happens next, after the events that the state lists (U4; notes/assumptions/3.md). -/
opaque Config.freeEventKind : Nat → EventKind

/-- Free draw `n` of the input ports of a sequencer step (U4). -/
opaque Config.freeInputs : Nat → Inputs

/-- Free draw `n` of an arriving frame, less its length (U4). -/
opaque Config.freeFrame : Nat → Frame

/-- Free draw `n` of an arriving frame's length, 0 to 8, which is the environment's contract (R196). -/
opaque Config.freeFrameLen : Nat → Fin 9

end Sys2Proof
end

