-- ==== Sys2Proof/Syntax.lean ====
section
/-! DEFINITION. The five host commands, one constructor per row of spec/opcode_table.json (R83), each with the operands
of its format (R82, R84). -/

namespace Sys2Proof

/-- A host command. The operands are the fields of the command word, each at its full width, so no encodable operand
value is left out (R84). -/
inductive Instr where
  /-- INIT (R110): `DEBUG`, `NODE`, `BITRATE`, `TIMEOUT`. -/
  | init (debug : Bool) (node : CanId) (bitrate timeout : Word32)
  /-- POLL (R120): `MODE`, `KIND`, `LEN`, `HDR`, `FILT`, `PAYLOAD`. -/
  | poll (mode : Mode) (kind : Kind) (len : BitVec 8) (hdr filt : CanId) (payload : Value)
  /-- POLLH (R136): POLL with `FILT` = `HDR`. -/
  | pollh (mode : Mode) (kind : Kind) (len : BitVec 8) (hdr : CanId) (payload : Value)
  /-- SET_TIMEOUT (R150): `TIMEOUT`. -/
  | setTimeout (timeout : Word32)
  /-- DECODE (R160): `LEN`, `BYTES`. -/
  | decode (len : BitVec 8) (bytes : Value)
deriving DecidableEq, Repr

end Sys2Proof
end

