-- ==== Sys2Proof/WellFormed.lean ====
section
/-! DEFINITION. Which instructions have legal operands. Every field is held at its exact width, so the one range left to
check is DECODE's length (R87, R163). -/

namespace Sys2Proof

/-- An instruction with legal operands. `LEN` of DECODE is at most 8: longer ones are illegal (R87, R163). `LEN` 9 to 255
of POLL and POLLH is a legal encoding whose effect is the length guard (R87, R122), and every identifier, timeout, bit
rate and payload is legal (R22, R23, R111). -/
def Instr.wf : Instr → Bool
  | .init _ _ _ _ => true
  | .poll _ _ _ _ _ _ => true
  | .pollh _ _ _ _ _ => true
  | .setTimeout _ => true
  | .decode len _ => len.toNat ≤ MAX_LEN

end Sys2Proof
end

