-- ==== Sys2Proof/Decode.lean ====
section
/-! DEFINITION. The decoder, total on every 128-bit command word and rejecting by name, and the encoder
(spec/30_encoding.md R80 to R88). -/

namespace Sys2Proof

/-- Why a word is no command (R85, R86). -/
inductive DecodeError where
  /-- `OP` is 0x0 or 0x6 to 0xF (R85). -/
  | reservedOpcode (op : BitVec 4)
  /-- `OP` names a command and a bit reserved in its format is 1 (R86). -/
  | reservedBits (op : BitVec 4)
deriving DecidableEq, Repr

/-! ## The fields of a word (R81) -/

/-- `OP`, bits 127:124. -/
def fieldOp (w : CmdWord) : BitVec 4 := w.extractLsb' 124 4

/-- `F1`, bit 123: `MODE` or `DEBUG`. -/
def fieldF1 (w : CmdWord) : Bool := w.extractLsb' 123 1 == 1#1

/-- `F0`, bit 122: `KIND`. -/
def fieldF0 (w : CmdWord) : Bool := w.extractLsb' 122 1 == 1#1

/-- `LEN`, bits 119:112. -/
def fieldLen (w : CmdWord) : BitVec 8 := w.extractLsb' 112 8

/-- `IDA`, bits 106:96: `HDR` or `NODE`. -/
def fieldIdA (w : CmdWord) : CanId := w.extractLsb' 96 11

/-- `IDB`, bits 90:80: `FILT`. -/
def fieldIdB (w : CmdWord) : CanId := w.extractLsb' 80 11

/-- `DATA`, bits 63:0. -/
def fieldData (w : CmdWord) : Value := w.extractLsb' 0 64

/-- `BITRATE`, bits 63:32 in format I. -/
def fieldBitrate (w : CmdWord) : Word32 := w.extractLsb' 32 32

/-- `TIMEOUT`, bits 31:0 in formats I and T. -/
def fieldTimeout (w : CmdWord) : Word32 := w.extractLsb' 0 32

/-- The 1-bit code of a kind: 0 = DATA, 1 = REMOTE (R26, R84). -/
def Kind.bit : Kind → Bool
  | .data => false
  | .remote => true

/-- The kind a bit stands for (R84). -/
def Kind.ofBit : Bool → Kind
  | false => .data
  | true => .remote

/-- The 1-bit code of a mode: 0 = QUERY_RESPONSE, 1 = PASSIVE_LISTEN (R26, R84). -/
def Mode.bit : Mode → Bool
  | .queryResponse => false
  | .passiveListen => true

/-- The mode a bit stands for (R84). -/
def Mode.ofBit : Bool → Mode
  | false => .queryResponse
  | true => .passiveListen

/-! ## The opcode map (R83) -/

/-- One row of the opcode map: a word `w` selects it when `w AND mask = pattern` (R83). -/
structure Row where
  mnemonic : String
  pattern  : CmdWord
  mask     : CmdWord
deriving DecidableEq, Repr

/-- INIT, format I. -/
def rowInit : Row := ⟨"INIT", 0x10000000_00000000_00000000_00000000#128, 0xF7FFF800_FFFFFFFF_00000000_00000000#128⟩

/-- POLL, format P. -/
def rowPoll : Row := ⟨"POLL", 0x20000000_00000000_00000000_00000000#128, 0xF300F800_F800FFFF_00000000_00000000#128⟩

/-- POLLH, format H. -/
def rowPollh : Row := ⟨"POLLH", 0x30000000_00000000_00000000_00000000#128, 0xF300F800_FFFFFFFF_00000000_00000000#128⟩

/-- SET_TIMEOUT, format T. -/
def rowSetTimeout : Row :=
  ⟨"SET_TIMEOUT", 0x40000000_00000000_00000000_00000000#128, 0xFFFFFFFF_FFFFFFFF_FFFFFFFF_00000000#128⟩

/-- DECODE, format D. -/
def rowDecode : Row := ⟨"DECODE", 0x50000000_00000000_00000000_00000000#128, 0xFF00FFFF_FFFFFFFF_00000000_00000000#128⟩

/-- The opcode map of R83, in its order. -/
def opcodeMap : List Row := [rowInit, rowPoll, rowPollh, rowSetTimeout, rowDecode]

/-- The word selects the row (R83). -/
def Row.selects (r : Row) (w : CmdWord) : Bool := w &&& r.mask == r.pattern

/-! ## The decoder -/

/-- The instruction a word stands for: `OP` first (check 2 of R91), then the reserved bits of its format (check 3 of
R91), then the operands (R84). -/
def decode (w : CmdWord) : Except DecodeError Instr :=
  if fieldOp w = 0x1#4 then
    if rowInit.selects w then .ok (.init (fieldF1 w) (fieldIdA w) (fieldBitrate w) (fieldTimeout w))
    else .error (.reservedBits (fieldOp w))
  else if fieldOp w = 0x2#4 then
    if rowPoll.selects w then
      .ok (.poll (Mode.ofBit (fieldF1 w)) (Kind.ofBit (fieldF0 w)) (fieldLen w) (fieldIdA w) (fieldIdB w) (fieldData w))
    else .error (.reservedBits (fieldOp w))
  else if fieldOp w = 0x3#4 then
    if rowPollh.selects w then
      .ok (.pollh (Mode.ofBit (fieldF1 w)) (Kind.ofBit (fieldF0 w)) (fieldLen w) (fieldIdA w) (fieldData w))
    else .error (.reservedBits (fieldOp w))
  else if fieldOp w = 0x4#4 then
    if rowSetTimeout.selects w then .ok (.setTimeout (fieldTimeout w))
    else .error (.reservedBits (fieldOp w))
  else if fieldOp w = 0x5#4 then
    if rowDecode.selects w then .ok (.decode (fieldLen w) (fieldData w))
    else .error (.reservedBits (fieldOp w))
  else .error (.reservedOpcode (fieldOp w))

/-! ## The encoder -/

/-- A word put together from the fields of R81, every reserved bit 0. -/
def assemble (op : BitVec 4) (f1 f0 : Bool) (len : BitVec 8) (ida idb : CanId) (data : Value) : CmdWord :=
  op ++ BitVec.ofBool f1 ++ BitVec.ofBool f0 ++ 0#2 ++ len ++ 0#5 ++ ida ++ 0#5 ++ idb ++ 0#16 ++ data

/-- The word of an instruction, format by format (R82). -/
def encode : Instr → CmdWord
  | .init debug node bitrate timeout => assemble 0x1#4 debug false 0#8 node 0#11 (bitrate ++ timeout)
  | .poll mode kind len hdr filt payload => assemble 0x2#4 mode.bit kind.bit len hdr filt payload
  | .pollh mode kind len hdr payload => assemble 0x3#4 mode.bit kind.bit len hdr 0#11 payload
  | .setTimeout timeout => assemble 0x4#4 false false 0#8 0#11 0#11 (0#32 ++ timeout)
  | .decode len bytes => assemble 0x5#4 false false len 0#11 0#11 bytes

/-- The POLL word a POLLH word stands for: `OP` = 0x2 and bits 90:80 = bits 106:96, the rest as it is (R136). -/
def pollOfPollh (w : CmdWord) : CmdWord :=
  assemble 0x2#4 (fieldF1 w) (fieldF0 w) (fieldLen w) (fieldIdA w) (fieldIdA w) (fieldData w)

/-- The 128-bit command word whose bits are `w`, bits at and above `nbits` being 0. A command is one parallel 128-bit
word (R80, R53), numbered as spec/opcode_table.json numbers it. -/
def tableWord (nbits w : Nat) : CmdWord := BitVec.ofNat 128 (w % 2 ^ nbits)

/-- The instruction the decoder reads from the command word whose bits are `w`; `none` where it refuses the word. -/
def decodeTableWord (nbits w : Nat) : Option Instr :=
  match decode (tableWord nbits w) with
  | .ok i => some i
  | .error _ => none

end Sys2Proof
end

