-- ==== Sys2Proof/Machine/State.lean ====
section
/-! DEFINITION. The state of the block (spec/10_state.md), why a step can stop, and the state after reset (R37). -/

namespace Sys2Proof.Machine

/-- The nine values of the state register `st` (R21). -/
inductive Phase where
  | idle
  | begin
  | filterSet
  | transmit
  | wait
  | matched
  | timedOut
  | errored
  | filterRestored
deriving DecidableEq, Repr

/-- The response status codes that are produced (R210); code 7 is reserved and never produced. -/
inductive Status where
  | ok
  | payloadTooLong
  | timedOut
  | busError
  | initFailed
  | illegalCmd
  | badState
deriving DecidableEq, Repr

/-- One entry of the acceptance-filter table (R29). -/
structure FilterEntry where
  id   : CanId
  mask : CanId
deriving DecidableEq, Repr

/-- An output event of a step (R7, R10): the `begin` request (R191), a frame handed to the transmitter (R192), the
response to the command in progress. -/
inductive OutEvent where
  | begin (rate : Word32) (loopback : Bool)
  | tx (f : Frame)
  | respond (status : Status) (value : Value)
deriving DecidableEq, Repr

/-- The block has no fault: every failure is a response status, never a trap (R11, R220), and a `begin` that never answers
or a clock that stops is a hang that the model keeps as endless next states (U12). So there is no constructor. Safe. -/
inductive Fault where
deriving DecidableEq, Repr

/-- Why the model gives a step no meaning. -/
inductive Refusal where
  /-- An instruction that has no meaning yet. No arm of `exec` answers it. Safe. -/
  | notModelled (mnemonic : String)
  /-- Raised by an arrival event whose frame has `rx_len` 9 to 15: outside the environment's contract, "no move in the
  model" (R196, U3). Safe: the model stops. -/
  | arrivalLength
  /-- Raised by a WAIT step that pops a frame longer than 8 bytes: `decode(b, n)` has no value for `n > 8` (R163, U1).
  No run reaches it, by invariant I-g of R34. Safe: the model stops. -/
  | decodeLength
  /-- Raised by ADDFILTER on a full table, which "is given no meaning" (R173, U2). Nothing reaches it: the table has just
  been cleared. Safe: the model stops. -/
  | filterTableFull
deriving DecidableEq, Repr

/-- The block's registers and storage (R21 to R30, summary R35), then three fields of the model's own: what the outside
does next, how many free draws have been made, and the output events of the step that led to this state. The decode
buffer `dbuf` is not state (R31). -/
structure State where
  /-- `st`, the sequencing state (R21). -/
  st         : Phase
  /-- `inited`: a construction has completed successfully (R25). -/
  inited     : Bool
  /-- `node_id` (R22). -/
  nodeId     : CanId
  /-- `timeout`, in milliseconds (R23). -/
  timeout    : Word32
  /-- `cfg_bitrate` (R24). -/
  cfgBitrate : Word32
  /-- `cfg_debug` (R24). -/
  cfgDebug   : Bool
  /-- `rq_hdr` (R26). -/
  rqHdr      : CanId
  /-- `rq_filt` (R26). -/
  rqFilt     : CanId
  /-- `rq_mode` (R26). -/
  rqMode     : Mode
  /-- `rq_kind` (R26). -/
  rqKind     : Kind
  /-- `rq_len` (R26). -/
  rqLen      : BitVec 4
  /-- `rq_data`, an 8-byte array by R52 (R26). -/
  rqData     : Value
  /-- `t0`, the clock on entry to the wait loop (R27). -/
  t0         : Word32
  /-- `out_status`, the status being prepared (R28). -/
  outStatus  : Status
  /-- `out_value`, the value being prepared (R28). -/
  outValue   : Value
  /-- `ftab`, the acceptance-filter table (R29). -/
  ftab       : List FilterEntry
  /-- `rxq`, the receive queue, head first (R30). -/
  rxq        : List Frame
  /-- The model's own: what the host and the bus environment do next, in order (R8). -/
  env        : List Event
  /-- The model's own: how many free draws have been made since `env` ran out. -/
  draws      : Nat
  /-- The model's own: the output ports, as the output events of the last step in their order (R9, R190). -/
  outs       : List OutEvent
deriving DecidableEq, Repr

/-- The state after reset (R37). `st`, `inited`, `ftab` and `rxq` are the spec's. The spec leaves the other registers
unspecified; the zeros are this model's (DESIGN CHOICE, unsafe: notes/assumptions/1.md), and no rule reads them before they
are written. Nothing is listed to happen, so what happens next is drawn freely. -/
def State.reset : State where
  st         := .idle
  inited     := false
  nodeId     := 0#11
  timeout    := 0#32
  cfgBitrate := 0#32
  cfgDebug   := false
  rqHdr      := 0#11
  rqFilt     := 0#11
  rqMode     := .queryResponse
  rqKind     := .data
  rqLen      := 0#4
  rqData     := 0#64
  t0         := 0#32
  outStatus  := .ok
  outValue   := 0#64
  ftab       := []
  rxq        := []
  env        := []
  draws      := 0
  outs       := []

/-- What a step of this block answers. -/
abbrev Result := Host.Outcome State Fault Refusal

end Sys2Proof.Machine
end

