-- ==== Sys2Proof/Machine/Operands.lean ====
section
/-! DEFINITION. How bytes become numbers: the byte lanes of a 64-bit carrier (R52), the primitives on the decode buffer
(R7), and the function `decode` (R161). -/

namespace Sys2Proof.Machine

/-- Byte `i` of a 64-bit carrier: bits `8i+7:8i` (R52). -/
def laneByte (v : Value) (i : Nat) : Byte := v.extractLsb' (8 * i) 8

/-- `bytes(v)`: the 8-byte array of a 64-bit value (R7, R52). -/
def bytes (v : Value) : Bytes :=
  #v[laneByte v 0, laneByte v 1, laneByte v 2, laneByte v 3, laneByte v 4, laneByte v 5, laneByte v 6, laneByte v 7]

/-- The 64-bit carrier of an 8-byte array, the inverse of `bytes` (R52). -/
def carrier (b : Bytes) : Value := b[7] ++ b[6] ++ b[5] ++ b[4] ++ b[3] ++ b[2] ++ b[1] ++ b[0]

/-- Byte `i` of an array, for `i` in 0 to 7. -/
def byteAt (b : Bytes) (i : Nat) : Byte := (b[i]?).getD 0#8

/-- Eight bytes of 0x00. -/
def zeroBytes : Bytes := Vector.replicate 8 0#8

/-- `dst[k] <- src[k]` for `k` in `0 … n-1`: the copy loop of R161. -/
def copyBytes (src : Bytes) : Nat → Bytes → Bytes
  | 0, dst => dst
  | n + 1, dst => (copyBytes src n dst).setIfInBounds n (byteAt src n)

/-- The first `n` bytes of an array, 0x00 at and above index `n` (R54): the zero-filled decode buffer of R161 and the data
bytes a frame is transmitted with (R124, R127). -/
def firstBytes (b : Bytes) (n : Nat) : Bytes := copyBytes b n zeroBytes

/-- `MemRead(a, n)`: `Σ_{k<n} dbuf[a+k] · 2^{8k}`, little-endian (R7, R51). It is used with `a + n ≤ 8` only. -/
def memRead (dbuf : Bytes) (a : Nat) : Nat → Nat
  | 0 => 0
  | n + 1 => memRead dbuf a n + (byteAt dbuf (a + n)).toNat * 2 ^ (8 * n)

/-- `decode(b, n)`: zero-fill the buffer, copy `n` bytes, read all eight, little-endian (R161). It has no value for
`n > 8` (R163, U1). -/
def decodeBytes (b : Bytes) (n : Nat) : Option Value :=
  if n ≤ MAX_LEN then some (BitVec.ofNat 64 (memRead (firstBytes b n) 0 8)) else none

end Sys2Proof.Machine
end

