-- ==== Sys2Proof/Machine/Flags.lean ====
section
/-! DEFINITION. The block has no status flags (R32). This file holds what stands in their place: the conditions the step
rules test (R129, R194), the codes of statuses and states (R21, R210), and the output ports (R190). -/

namespace Sys2Proof.Machine

/-- The 4-bit code of a state (R21). -/
def Phase.code : Phase → BitVec 4
  | .idle => 0x0#4
  | .begin => 0x1#4
  | .filterSet => 0x2#4
  | .transmit => 0x3#4
  | .wait => 0x4#4
  | .matched => 0x5#4
  | .timedOut => 0x6#4
  | .errored => 0x7#4
  | .filterRestored => 0x8#4

/-- The 3-bit code of a status (R210). -/
def Status.code : Status → BitVec 3
  | .ok => 0#3
  | .payloadTooLong => 1#3
  | .timedOut => 2#3
  | .busError => 3#3
  | .initFailed => 4#3
  | .illegalCmd => 5#3
  | .badState => 6#3

/-- `err_status` shows an error: it is not `NO_ERROR` = 0; which non-zero value it is makes no difference (R194). -/
def errorPresent (errStatus : BitVec 8) : Bool := errStatus != 0#8

/-- `elapsed = (now − t0) mod 2^32` (R129). -/
def elapsed (now t0 : Word32) : Word32 := now - t0

/-- `elapsed ≥ timeout`, unsigned (R129, R225). -/
def deadlinePassed (now t0 timeout : Word32) : Bool := timeout.toNat ≤ (elapsed now t0).toNat

/-! ## Output ports (R190) -/

/-- `busy`: 1 exactly when `st ≠ IDLE`. -/
def State.busy (s : State) : Bool := s.st != .idle

/-- `cmd_ready`: 1 exactly when `st = IDLE`. -/
def State.cmdReady (s : State) : Bool := s.st == .idle

/-- `rsp_status` and `rsp_value` as driven by an output event; `none` where the event is no response. -/
def OutEvent.rsp : OutEvent → Option (BitVec 3 × Value)
  | .respond status value => some (status.code, value)
  | .tx _ => none
  | .begin _ _ => none

/-- `tx_id`, `tx_kind`, `tx_len`, `tx_data` as driven by an output event. -/
def OutEvent.txPorts : OutEvent → Option (CanId × Bool × BitVec 4 × Value)
  | .tx f => some (f.id, f.kind.bit, f.len, carrier f.data)
  | .respond _ _ => none
  | .begin _ _ => none

/-- `begin_rate`, `begin_loopback` as driven by an output event. -/
def OutEvent.beginPorts : OutEvent → Option (Word32 × Bool)
  | .begin rate loopback => some (rate, loopback)
  | .respond _ _ => none
  | .tx _ => none

/-- The response ports in the step that led to this state: `rsp_valid` = 1 where it is `some`. -/
def State.rspPort (s : State) : Option (BitVec 3 × Value) := s.outs.findSome? OutEvent.rsp

/-- The transmit ports in the step that led to this state: `tx_valid` = 1 where it is `some`. -/
def State.txPort (s : State) : Option (CanId × Bool × BitVec 4 × Value) := s.outs.findSome? OutEvent.txPorts

/-- The `begin` ports in the step that led to this state: `begin_req` = 1 where it is `some`. -/
def State.beginPort (s : State) : Option (Word32 × Bool) := s.outs.findSome? OutEvent.beginPorts

/-- The frame on `rx_id`, `rx_kind`, `rx_len`, `rx_data` (R190, R196). -/
def frameOfPorts (id : CanId) (kind : Bool) (len : BitVec 4) (data : Value) : Frame :=
  { id := id, kind := Kind.ofBit kind, len := len, data := bytes data }

end Sys2Proof.Machine
end

