-- ==== Sys2Proof/Machine/Ops.lean ====
section
/-! DEFINITION. The operations the step rules share: output events and the failure exit (R7, R10, R217, R220), the filter
micro-operations and the arrival rule (44_setfilter.md), and the pop of the receive queue (R193). -/

namespace Sys2Proof.Machine

/-! ## Output events and failure exits -/

/-- An output event is added after those the step has already caused (R9). -/
def State.emit (s : State) (e : OutEvent) : State := { s with outs := s.outs ++ [e] }

/-- `respond(status, value)` (R10). -/
def State.respond (s : State) (status : Status) (value : Value) : State := s.emit (.respond status value)

/-- `raise <Name>`: the failure exit of a command, the one operation every failure decided at once goes through (R7, R210,
R217, R220). It answers the status with `SENTINEL`. No state is saved and control goes nowhere: the step's rule says what
`st` becomes. There is no handler and no return (R221). -/
def State.raise (s : State) (status : Status) : State := s.respond status SENTINEL

/-- `reg.st <- ph` (R7). -/
def State.goto (s : State) (ph : Phase) : State := { s with st := ph }

/-- `out_status` and `out_value` are written together (R28). -/
def State.prepare (s : State) (status : Status) (value : Value) : State :=
  { s with outStatus := status, outValue := value }

/-- A failure inside a poll: the status is prepared with `SENTINEL` and answered once the default filter is back (R28, R212,
R213, R217). -/
def State.prepareFailure (s : State) (status : Status) : State := s.prepare status SENTINEL

/-- Check 1 of R91: a command is accepted only while `st = IDLE`; otherwise the word is not accepted and nothing happens. -/
def whenIdle (s : State) (accepted : Result) : Result := if s.st = .idle then accepted else .next s

/-- An illegal command word is answered `ILLEGAL_CMD`, with no other effect (R85, R86, R215). -/
def rejectWord (s : State) : Result := whenIdle s (.next (s.raise .illegalCmd))

/-! ## The filter (44_setfilter.md) -/

/-- A list has fewer than `cap` elements. -/
def hasRoom {α : Type} : List α → Nat → Bool
  | _, 0 => false
  | [], _ + 1 => true
  | _ :: l, cap + 1 => hasRoom l cap

/-- One entry accepts an identifier exactly when `(x AND mask) = (id AND mask)` (R170). -/
def FilterEntry.accepts (e : FilterEntry) (x : CanId) : Bool := x &&& e.mask == e.id &&& e.mask

/-- `accept(T, x)`: at least one entry of the table accepts `x`; the empty table accepts nothing (R171, R180). -/
def accept (table : List FilterEntry) (x : CanId) : Bool := table.any fun e => e.accepts x

/-- CLEARFILTERS (R172). -/
def State.clearFilters (s : State) : State := { s with ftab := [] }

/-- ADDFILTER(id, mask), which requires fewer than `NFILT` entries (R173). -/
def State.addFilter (s : State) (p : Params) (id mask : CanId) : Option State :=
  if hasRoom s.ftab p.nfilt then some { s with ftab := s.ftab ++ [⟨id, mask⟩] } else none

/-- SETFILTER(id): clear, then add `(id, 0x7FF)`, inside one step (R174, R176). -/
def State.setFilter (s : State) (p : Params) (id : CanId) : Option State :=
  s.clearFilters.addFilter p id MASK_EXACT

/-- SETFILTER_DEFAULT: SETFILTER(node_id) (R175). -/
def State.setFilterDefault (s : State) (p : Params) : Option State := s.setFilter p s.nodeId

/-- A step goes on after a filter change; ADDFILTER on a full table has no meaning (R173, U2). -/
def afterFilter (changed : Option State) (next : State → State) : Result :=
  match changed with
  | some s => .next (next s)
  | none => .refused .filterTableFull

/-! ## The receive queue -/

/-- The arrival event (R178, R179): an accepted frame is queued at the tail if the queue has room, else the frame is dropped.
A frame with a length above 8 is outside the environment's contract (R196, U3). -/
def State.arrive (s : State) (p : Params) (f : Frame) : Result :=
  if f.len.toNat ≤ MAX_LEN then
    if accept s.ftab f.id && hasRoom s.rxq p.rxqDepth then .next { s with rxq := s.rxq ++ [f] } else .next s
  else .refused .arrivalLength

/-- `pop rxq`: the oldest frame and the state without it; `none` where the queue is empty (R193). -/
def State.pop (s : State) : Option (Frame × State) :=
  match s.rxq with
  | [] => none
  | f :: q => some (f, { s with rxq := q })

/-- The frame of identifier `id` that is transmitted with the first `n` bytes of `b`, 0x00 above them (R54, R124, R127). -/
def outFrame (id : CanId) (kind : Kind) (len : BitVec 4) (b : Bytes) : Frame :=
  { id := id, kind := kind, len := len, data := firstBytes b len.toNat }

/-! ## Events -/

/-- Free draw `n` of what happens next, within the environment's contract (U4, R196). -/
def freeEvent (n : Nat) : Event :=
  match Config.freeEventKind n with
  | .reset => .reset
  | .arrive => .arrive { Config.freeFrame n with len := BitVec.ofNat 4 (Config.freeFrameLen n).val }
  | .step => .step (Config.freeInputs n)

/-- What happens next, and the state as that event finds it: the event is taken off the list, or drawn freely where the list
is empty, and the output ports of the step before are no longer driven (R8, R190). -/
def State.takeEvent (s : State) : Event × State :=
  match s.env with
  | e :: es => (e, { s with env := es, outs := [] })
  | [] => (freeEvent s.draws, { s with draws := s.draws + 1, outs := [] })

/-- `rst` (R240): every piece of state goes to its value after reset, a command in progress is dropped without a response,
and no output event is caused. The registers R240 leaves unspecified get the zeros of `State.reset` (DESIGN CHOICE, unsafe:
notes/assumptions/2.md). What the outside does next is not the block's state and stays. -/
def State.resetBlock (s : State) : State := { State.reset with env := s.env, draws := s.draws }

end Sys2Proof.Machine
end

