-- ==== Sys2Proof/Machine/Construction.lean ====
section
/-! DEFINITION. INIT: its acceptance step and the steps of BEGIN (spec/40_construction.md). -/

namespace Sys2Proof.Machine

/-- The four configuration registers are written together (R111). -/
def State.configure (s : State) (debug : Bool) (node : CanId) (bitrate timeout : Word32) : State :=
  { s with nodeId := node, timeout := timeout, cfgBitrate := bitrate, cfgDebug := debug }

/-- INIT (R110): refused with `BAD_STATE` after a successful construction (R115), else the acceptance step of R111. The
response comes from a later step, in BEGIN. -/
def execInit (debug : Bool) (node : CanId) (bitrate timeout : Word32) (s : State) : Result :=
  whenIdle s <|
    if s.inited then .next (s.raise .badState)
    else .next (((s.configure debug node bitrate timeout).emit (.begin bitrate debug)).goto .begin)

/-- A step in BEGIN: wait (R112), complete with the default filter installed (R113), or fail (R114). -/
def stepBegin (p : Params) (inp : Inputs) (s : State) : Result :=
  if inp.beginDone then
    if inp.beginOk then
      afterFilter (s.setFilterDefault p) fun s' => ({ s' with inited := true }.respond .ok 0#64).goto .idle
    else .next ((s.raise .initFailed).goto .idle)
  else .next s

end Sys2Proof.Machine
end

