-- ==== Sys2Proof/Machine/DecodeCommand.lean ====
section
/-! DEFINITION. DECODE (spec/43_decode.md). -/

namespace Sys2Proof.Machine

/-- DECODE (R160): the decoded value is answered, whatever `inited` is; a length above 8 is answered `ILLEGAL_CMD` (R163). -/
def execDecode (len : BitVec 8) (operand : Value) (s : State) : Result :=
  whenIdle s <|
    match decodeBytes (bytes operand) len.toNat with
    | some value => .next (s.respond .ok value)
    | none => .next (s.raise .illegalCmd)

end Sys2Proof.Machine
end

