-- ==== Sys2Proof/Machine/Poll.lean ====
section
/-! DEFINITION. POLL and POLLH, and the receiver state machine (spec/41_poll.md). -/

namespace Sys2Proof.Machine

/-- The request latch is written, all six registers together (R26, R123). `len` is at most 8, so its low four bits are all
of it. -/
def State.latch (s : State) (mode : Mode) (kind : Kind) (len : BitVec 8) (hdr filt : CanId) (payload : Value) : State :=
  { s with rqHdr := hdr, rqFilt := filt, rqMode := mode, rqKind := kind, rqLen := len.extractLsb' 0 4, rqData := payload }

/-- The acceptance of a poll: construction state (R121), then the length guard (R122), then the request is latched and the
filter installed (R123). -/
def acceptPoll (mode : Mode) (kind : Kind) (len : BitVec 8) (hdr filt : CanId) (payload : Value) (s : State) : Result :=
  whenIdle s <|
    if s.inited then
      if len.toNat ≤ MAX_LEN then
        afterFilter ((s.latch mode kind len hdr filt payload).setFilter Config.params filt) fun s' => s'.goto .filterSet
      else .next (s.raise .payloadTooLong)
    else .next (s.raise .badState)

/-- POLL (R120). -/
def execPoll (mode : Mode) (kind : Kind) (len : BitVec 8) (hdr filt : CanId) (payload : Value) (s : State) : Result :=
  acceptPoll mode kind len hdr filt payload s

/-- POLLH (R136): "Pure delegation", the filter identifier is the header identifier. -/
def execPollh (mode : Mode) (kind : Kind) (len : BitVec 8) (hdr : CanId) (payload : Value) (s : State) : Result :=
  acceptPoll mode kind len hdr hdr payload s

/-- The query frame (R124, R125): identifier `rq_hdr`, the first `rq_len` bytes of the payload. -/
def State.queryFrame (s : State) : Frame := outFrame s.rqHdr s.rqKind s.rqLen (bytes s.rqData)

/-- The diagnostic frame (R127): identifier `node_id`, the rest from the parameters of R5. -/
def State.diagFrame (s : State) (p : Params) : Frame :=
  outFrame s.nodeId p.diagKind (BitVec.ofNat 4 p.diagLen.val) p.diagData

/-- The one sample of `err_status` in a poll: no error goes to WAIT and records the clock (R126), an error sends the diagnostic
frame and goes to ERRORED (R127). -/
def errorCheck (p : Params) (inp : Inputs) (s : State) : Result :=
  if errorPresent inp.errStatus then
    .next (((s.emit (.tx (s.diagFrame p))).prepareFailure .busError).goto .errored)
  else .next ({ s with t0 := inp.now }.goto .wait)

/-- A step in FILTER_SET: transmit the query in QUERY_RESPONSE mode (R124), else the error check at once (R126, R127). -/
def stepFilterSet (p : Params) (inp : Inputs) (s : State) : Result :=
  match s.rqMode with
  | .queryResponse => .next ((s.emit (.tx s.queryFrame)).goto .transmit)
  | .passiveListen => errorCheck p inp s

/-- A step in WAIT: a queued frame is taken and decoded without a look at the deadline or at its identifier and kind (R128,
R137); with the queue empty, the deadline has passed (R129) or the block keeps waiting (R130). -/
def stepWait (inp : Inputs) (s : State) : Result :=
  match s.pop with
  | some (f, s') =>
    match decodeBytes f.data f.len.toNat with
    | some value => .next ((s'.prepare .ok value).goto .matched)
    | none => .refused .decodeLength
  | none =>
    if deadlinePassed inp.now s.t0 s.timeout then .next ((s.prepareFailure .timedOut).goto .timedOut)
    else .next s

/-- The default filter is installed again (R131, R132, R133). -/
def stepRestore (p : Params) (s : State) : Result :=
  afterFilter (s.setFilterDefault p) fun s' => s'.goto .filterRestored

/-- The response is emitted and the poll is over (R134). -/
def stepRespond (s : State) : Result := .next ((s.respond s.outStatus s.outValue).goto .idle)

end Sys2Proof.Machine
end

