-- ==== Sys2Proof/Machine/Timeout.lean ====
section
/-! DEFINITION. SET_TIMEOUT (spec/42_change_timeout.md). -/

namespace Sys2Proof.Machine

/-- SET_TIMEOUT (R150): `timeout` is replaced and `(OK, 0)` answered, in one step; `BAD_STATE` before a successful
construction. -/
def execSetTimeout (timeout : Word32) (s : State) : Result :=
  whenIdle s <|
    if s.inited then .next ({ s with timeout := timeout }.respond .ok 0#64)
    else .next (s.raise .badState)

end Sys2Proof.Machine
end

