-- ==== Sys2Proof/Machine/Dispatch.lean ====
section
/-! DEFINITION. `exec`: one arm per host command (R83). It is the step in which the command is presented; the later steps of
INIT, POLL and POLLH are those of `advance`. -/

namespace Sys2Proof.Machine

def exec (i : Instr) (s : State) : Host.Outcome State Fault Refusal :=
  match i with
  | .init debug node bitrate timeout => Sys2Proof.Machine.execInit debug node bitrate timeout s
  | .poll mode kind len hdr filt payload => Sys2Proof.Machine.execPoll mode kind len hdr filt payload s
  | .pollh mode kind len hdr payload => Sys2Proof.Machine.execPollh mode kind len hdr payload s
  | .setTimeout timeout => Sys2Proof.Machine.execSetTimeout timeout s
  | .decode len bytes => Sys2Proof.Machine.execDecode len bytes s

end Sys2Proof.Machine
end

