-- ==== Sys2Proof/Machine/Sequencer.lean ====
section
/-! DEFINITION. What one event does (R8, R138): a transition of `st` out of a non-IDLE state, the acceptance of a presented
word, an arrival, a reset. `Machine/Step.lean` calls it with `exec` and the block's parameters. -/

namespace Sys2Proof.Machine

/-- One transition of `st` (the rows of R138 with a command in progress). In IDLE there is none. -/
def advance (p : Params) (inp : Inputs) (s : State) : Result :=
  match s.st with
  | .idle => .next s
  | .begin => stepBegin p inp s
  | .filterSet => stepFilterSet p inp s
  | .transmit => errorCheck p inp s
  | .wait => stepWait inp s
  | .matched => stepRestore p s
  | .timedOut => stepRestore p s
  | .errored => stepRestore p s
  | .filterRestored => stepRespond s

/-- A presented word in IDLE: decoded, then run; a word that is no command is answered `ILLEGAL_CMD` (R85, R86, R91). -/
def acceptWord (run : Instr → State → Result) (w : CmdWord) (s : State) : Result :=
  match decode w with
  | .ok i => run i s
  | .error _ => rejectWord s

/-- One sequencer step: in IDLE a presented word is accepted, and with none presented nothing happens; in every other state
the word on the port is not looked at and the command in progress goes on (R63, R91 check 1, R138). -/
def sequencerStep (p : Params) (run : Instr → State → Result) (inp : Inputs) (s : State) : Result :=
  if s.st = .idle then
    match inp.cmd with
    | some w => acceptWord run w s
    | none => .next s
  else advance p inp s

/-- What one event does to the state it finds (R8). -/
def runEvent (p : Params) (run : Instr → State → Result) (e : Event) (s : State) : Result :=
  match e with
  | .reset => .next s.resetBlock
  | .arrive f => s.arrive p f
  | .step inp => sequencerStep p run inp s

/-- The inputs of a step in which the host presents a word and nothing else is driven. An acceptance step samples no other
input (R111, R116, R123, R150, R160). -/
def presenting (w : CmdWord) : Inputs :=
  { cmd := some w, beginDone := false, beginOk := false, errStatus := 0#8, now := 0#32 }

end Sys2Proof.Machine
end

