-- ==== Sys2Proof/Machine/Step.lean ====
section
/-! DEFINITION. One step of the machine: the next event (R8), and where a host's command word stands for it. -/

namespace Sys2Proof.Machine

/-- One step: the next event is taken and done (R8, R9). -/
def step (s : State) : Host.Outcome State Fault Refusal :=
  runEvent Config.params exec s.takeEvent.1 s.takeEvent.2

/-- The state in which the next event is a sequencer step with that command word on `cmd_word` (R80, R190). Nothing else is
changed: a word is accepted only while `st = IDLE` (R91 check 1), which `State.reset` is in. -/
def State.withFetchWord (s : State) (nbits w : Nat) : State :=
  { s with env := .step (presenting (tableWord nbits w)) :: s.env }

end Sys2Proof.Machine
end

