-- ==== Sys2Proof/Safety.lean ====
section
/-! DEFINITION. What claims about the block are stated in: the invariants of R34, the environment's contract (R196), which
registers a later step can read (R37, U11), and counts and traces over runs (R10). -/

namespace Sys2Proof

/-- The environment keeps its contract in this event: an arriving frame has at most 8 bytes (R196). -/
def Event.inContract : Event → Bool
  | .reset => true
  | .arrive f => f.len.toNat ≤ MAX_LEN
  | .step _ => true

namespace Machine

/-- The default filter entry `(node_id, 0x7FF)` (R12, R175). -/
def State.defaultEntry (s : State) : FilterEntry := ⟨s.nodeId, MASK_EXACT⟩

/-- The filter entry of the poll in progress, `(rq_filt, 0x7FF)` (R123). -/
def State.pollEntry (s : State) : FilterEntry := ⟨s.rqFilt, MASK_EXACT⟩

/-- The states in which the poll's own filter is installed (R34 I-c). -/
def Phase.filtering : Phase → Bool
  | .filterSet => true
  | .transmit => true
  | .wait => true
  | .matched => true
  | .timedOut => true
  | .errored => true
  | .filterRestored => false
  | .idle => false
  | .begin => false

/-- The states that hold a response being prepared (R28). -/
def Phase.prepared : Phase → Bool
  | .matched => true
  | .timedOut => true
  | .errored => true
  | .filterRestored => true
  | .filterSet => false
  | .transmit => false
  | .wait => false
  | .idle => false
  | .begin => false

/-- The invariants of R34, with what R25, R28 and R241 add to make every step keep them. -/
structure State.Inv (s : State) : Prop where
  /-- I-a. -/
  idleDefault : s.st = .idle → s.inited = true → s.ftab = [s.defaultEntry]
  /-- I-b, and the empty queue of R241. -/
  unconstructed : s.inited = false → s.ftab = [] ∧ s.rxq = [] ∧ (s.st = .idle ∨ s.st = .begin)
  /-- In BEGIN no construction has completed (R25, R111). -/
  constructing : s.st = .begin → s.inited = false
  /-- I-c. -/
  filtering : s.st.filtering = true → s.inited = true ∧ s.ftab = [s.pollEntry] ∧ s.rqLen.toNat ≤ MAX_LEN
  /-- I-d. -/
  restored : s.st = .filterRestored → s.inited = true ∧ s.ftab = [s.defaultEntry]
  /-- I-e. -/
  oneEntry : s.ftab.length ≤ 1
  /-- I-g, the length of a queued frame. -/
  framesShort : ∀ f ∈ s.rxq, f.len.toNat ≤ MAX_LEN
  /-- The queue holds at most `RXQ_DEPTH` frames (R30). -/
  queueBounded : s.rxq.length ≤ Config.params.rxqDepth
  /-- The response prepared on entry to MATCHED (R128). -/
  matchedOk : s.st = .matched → s.outStatus = .ok
  /-- The response prepared on entry to TIMED_OUT (R129). -/
  timedOutPrepared : s.st = .timedOut → s.outStatus = .timedOut ∧ s.outValue = SENTINEL
  /-- The response prepared on entry to ERRORED (R127). -/
  erroredPrepared : s.st = .errored → s.outStatus = .busError ∧ s.outValue = SENTINEL
  /-- The response still to be emitted in FILTER_RESTORED (R134, R217). -/
  restoredPrepared : s.st = .filterRestored →
    s.outStatus = .ok ∨ (s.outStatus = .timedOut ∧ s.outValue = SENTINEL) ∨ (s.outStatus = .busError ∧ s.outValue = SENTINEL)

/-! ## Registers a later step can read -/

/-- Two states that agree on everything but registers no later step reads before it writes them: the configuration before
an INIT is accepted (R22, R23), `cfg_bitrate` and `cfg_debug` always (R24), the request latch once the query frame is built or
passed over (R26, R139), `t0` outside WAIT (R27), the prepared response outside the states that hold one (R28). -/
structure SameLive (s t : State) : Prop where
  st     : s.st = t.st
  inited : s.inited = t.inited
  ftab   : s.ftab = t.ftab
  rxq    : s.rxq = t.rxq
  env    : s.env = t.env
  draws  : s.draws = t.draws
  outs   : s.outs = t.outs
  config : s.inited = true ∨ s.st ≠ .idle → s.nodeId = t.nodeId ∧ s.timeout = t.timeout
  mode   : s.st = .filterSet → s.rqMode = t.rqMode
  query  : s.st = .filterSet → s.rqMode = .queryResponse →
    s.rqHdr = t.rqHdr ∧ s.rqKind = t.rqKind ∧ s.rqLen = t.rqLen ∧ s.rqData = t.rqData
  start  : s.st = .wait → s.t0 = t.t0
  answer : s.st.prepared = true → s.outStatus = t.outStatus ∧ s.outValue = t.outValue

/-- Two answers of a step that nothing read later can tell apart. -/
def SameLiveResult (a b : Result) : Prop :=
  match a, b with
  | .next s, .next t => SameLive s t
  | .refused r, .refused q => r = q
  | _, _ => False

/-! ## Runs -/

/-- `n` steps, ending at the first that stops. -/
def steps : Nat → State → Result
  | 0, s => .next s
  | n + 1, s =>
    match step s with
    | .next t => steps n t
    | .fault r => .fault r
    | .refused r => .refused r

/-- The output events of each of the next `n` steps; `none` ends the list where a step stops. -/
def trace : Nat → State → List (Option (List OutEvent))
  | 0, _ => []
  | n + 1, s =>
    match step s with
    | .next t => some t.outs :: trace n t
    | .fault _ => [none]
    | .refused _ => [none]

/-- The event is a response (R10). -/
def OutEvent.isResponse : OutEvent → Bool
  | .respond _ _ => true
  | .tx _ => false
  | .begin _ _ => false

/-- The event hands a frame to the transmitter (R192). -/
def OutEvent.isTx : OutEvent → Bool
  | .tx _ => true
  | .respond _ _ => false
  | .begin _ _ => false

/-- How many responses the step that led to this state emitted. -/
def State.responses (s : State) : Nat := s.outs.countP OutEvent.isResponse

/-- How many frames the step that led to this state transmitted. -/
def State.transmissions (s : State) : Nat := s.outs.countP OutEvent.isTx

/-- The next step accepts a command word: it is a sequencer step with `cmd_valid` = 1 and `cmd_ready` = 1 (R190). -/
def State.acceptsNext (s : State) : Bool :=
  match s.takeEvent.1 with
  | .step inp => s.cmdReady && inp.cmd.isSome
  | .arrive _ => false
  | .reset => false

/-- The commands accepted and the responses emitted in the next `n` steps, and the state after them; `none` where a step
stops or the block is reset. -/
def tally : Nat → State → Option (Nat × Nat × State)
  | 0, s => some (0, 0, s)
  | n + 1, s =>
    if s.takeEvent.1 = .reset then none
    else
      match step s with
      | .next t => (tally n t).map fun c => (s.acceptsNext.toNat + c.1, t.responses + c.2.1, c.2.2)
      | .fault _ => none
      | .refused _ => none

/-- The state as the next sequencer step of the list finds it: the event taken off, no output port driven. -/
def State.after (s : State) (rest : List Event) : State := { s with env := rest, outs := [] }

end Machine

/-- The request a poll command makes: mode, kind, length, header, filter (`FILT`, or `HDR` for POLLH) and payload (R84). -/
def Instr.request : Instr → Option (Mode × Kind × BitVec 8 × CanId × CanId × Value)
  | .poll mode kind len hdr filt payload => some (mode, kind, len, hdr, filt, payload)
  | .pollh mode kind len hdr payload => some (mode, kind, len, hdr, hdr, payload)
  | .init _ _ _ _ => none
  | .setTimeout _ => none
  | .decode _ _ => none

end Sys2Proof
end

