-- ==== Sys2Proof/Certificates/Slice0/Obligations.lean ====
section
/-! DEFINITION. The statements about the block, one per group of rules of the spec. None is proved here. A statement about one
step takes the event and the state it finds from `State.takeEvent`, so it holds of listed and of freely drawn events alike; an
equality with `.next { u with … }` also says that every field it does not name is unchanged. -/

open Sys2Proof Sys2Proof.Machine

/-! ## Encoding (spec/30_encoding.md) -/

/-- Every instruction, with every operand value, is what its own word decodes to (R82 to R84). -/
def Obligations.DecodeOfEncode : Prop := ∀ i : Instr, decode (encode i) = .ok i

/-- A word that decodes to an instruction is the one word of that instruction: no bit is dropped (R83, R86). -/
def Obligations.EncodeOfDecode : Prop := ∀ (w : CmdWord) (i : Instr), decode w = .ok i → encode i = w

/-- A word decodes exactly when a row of the opcode map selects it, no word selects two rows, and the two rejections are those
of R85 (the opcode is reserved) and R86 (a reserved bit is 1). -/
def Obligations.DecodeFollowsOpcodeMap : Prop :=
  ∀ w : CmdWord,
    ((∃ i, decode w = .ok i) ↔ ∃ r ∈ opcodeMap, r.selects w = true) ∧
    (∀ r ∈ opcodeMap, ∀ q ∈ opcodeMap, r.selects w = true → q.selects w = true → r = q) ∧
    (decode w = .error (.reservedOpcode (fieldOp w)) ↔ fieldOp w = 0#4 ∨ 5 < (fieldOp w).toNat) ∧
    (decode w = .error (.reservedBits (fieldOp w)) ↔
      0 < (fieldOp w).toNat ∧ (fieldOp w).toNat ≤ 5 ∧ ∀ r ∈ opcodeMap, r.selects w = false)

/-- The words printed in R111, R122, R136 (both), R150, R160 and R164 decode to the commands they are printed for, and R86's POLLH
word with `IDB` = 1 (95_test_vectors.md V-E row 5) is rejected for a reserved bit. -/
def Obligations.PrintedWordsDecode : Prop :=
  decode 0x10000100_00000000_0007A120_00000032#128 = .ok (.init false 0x100#11 500000#32 50#32) ∧
  decode 0x30090200_00000000_08070605_04030201#128 =
    .ok (.pollh .queryResponse .data 9#8 0x200#11 0x0807060504030201#64) ∧
  decode 0x20020200_02000000_00000000_00000201#128 =
    .ok (.poll .queryResponse .data 2#8 0x200#11 0x200#11 0x0201#64) ∧
  decode 0x30020200_00000000_00000000_00000201#128 = .ok (.pollh .queryResponse .data 2#8 0x200#11 0x0201#64) ∧
  decode 0x40000000_00000000_00000000_00000064#128 = .ok (.setTimeout 100#32) ∧
  decode 0x50080000_00000000_00000000_0000002A#128 = .ok (.decode 8#8 42#64) ∧
  decode 0x50030000_00000000_08070605_04030201#128 = .ok (.decode 3#8 0x0807060504030201#64) ∧
  decode 0x30020200_00010000_00000000_00000201#128 = .error (.reservedBits 0x3#4)

/-- A POLLH word acts in every respect as the POLL word with `OP` = 0x2 and `CW[90:80] = CW[106:96]`, in every state (R136). -/
def Obligations.PollhWordActsAsPollWord : Prop :=
  ∀ (s : State) (inp : Inputs) (rest : List Event) (w : CmdWord), rowPollh.selects w = true →
    rowPoll.selects (pollOfPollh w) = true ∧ fieldIdB (pollOfPollh w) = fieldIdA w ∧
    (∀ k, k < 80 ∨ 90 < k → k < 124 → (pollOfPollh w).getLsbD k = w.getLsbD k) ∧
    step { s with env := .step { inp with cmd := some w } :: rest } =
      step { s with env := .step { inp with cmd := some (pollOfPollh w) } :: rest }

/-! ## Steps, events, acceptance -/

/-- The next event is the first of the list, and where the list is empty a free draw within the contract (R8, R196); taking
it changes nothing but the list or the count of draws, and the output ports. The list and the draws are the model's own
(notes/assumptions/3.md). -/
def Obligations.NextEventIsListedOrDrawn : Prop :=
  (∀ (s : State) (e : Event) (rest : List Event), s.env = e :: rest → s.takeEvent = (e, s.after rest)) ∧
  (∀ s : State, s.env = [] → s.takeEvent = (freeEvent s.draws, { s with draws := s.draws + 1, outs := [] })) ∧
  ∀ n : Nat, (freeEvent n).inContract = true

/-- In IDLE, a presented word that decodes to `i` is run: the step is `exec i` of the state the event finds (R8, R91), and
with no word presented nothing happens (R138, first row). That a word stored by `withFetchWord` is the next event is no rule of
the spec but the model's own way to present a word (DESIGN CHOICE, notes/assumptions/4.md and 20.md). -/
def Obligations.StepRunsDecodedInstruction : Prop :=
  (∀ (s u : State) (inp : Inputs) (w : CmdWord) (i : Instr), s.takeEvent = (.step inp, u) → u.st = .idle →
    inp.cmd = some w → decode w = .ok i → step s = exec i u) ∧
  (∀ (s : State) (w : Nat) (i : Instr), s.st = .idle → decodeTableWord 128 w = some i →
    step (s.withFetchWord 128 w) = exec i { s with outs := [] }) ∧
  ∀ (s u : State) (inp : Inputs), s.takeEvent = (.step inp, u) → u.st = .idle → inp.cmd = none → step s = .next u

/-- The checks of R91 in their order, stated on the bits of a word presented in IDLE and on `inited`: every failing case answers
its status with the sentinel and changes nothing else. -/
def Obligations.AcceptanceChecksInOrder : Prop :=
  ∀ (s u : State) (inp : Inputs) (w : CmdWord), s.takeEvent = (.step inp, u) → u.st = .idle → inp.cmd = some w →
    ((∀ r ∈ opcodeMap, r.selects w = false) → step s = .next { u with outs := [.respond .illegalCmd SENTINEL] }) ∧
    (rowInit.selects w = true → u.inited = true → step s = .next { u with outs := [.respond .badState SENTINEL] }) ∧
    (rowPoll.selects w = true ∨ rowPollh.selects w = true ∨ rowSetTimeout.selects w = true → u.inited = false →
      step s = .next { u with outs := [.respond .badState SENTINEL] }) ∧
    (rowPoll.selects w = true ∨ rowPollh.selects w = true → u.inited = true → 8 < (fieldLen w).toNat →
      step s = .next { u with outs := [.respond .payloadTooLong SENTINEL] }) ∧
    (rowDecode.selects w = true → 8 < (fieldLen w).toNat →
      step s = .next { u with outs := [.respond .illegalCmd SENTINEL] })

/-- Check 1 of R91: outside IDLE no command is accepted, whatever it is. `exec` changes nothing, and what the host presents has
no effect on the step (R63, R152, R190). -/
def Obligations.BusyBlockAcceptsNoCommand : Prop :=
  (∀ (i : Instr) (s : State), s.st ≠ .idle → exec i s = .next s) ∧
  ∀ (s : State) (inp : Inputs) (cmd : Option CmdWord) (rest : List Event), s.st ≠ .idle →
    step { s with env := .step { inp with cmd := cmd } :: rest } = step { s with env := .step inp :: rest }

/-- A step looks at an input only where a rule samples it: `begin_done` and `begin_ok` in BEGIN (R191), `err_status` at the one
error check (R194), `now` on entry to WAIT and in a WAIT step with the queue empty (R195), the command port in IDLE (R63). -/
def Obligations.UnsampledInputsDoNotMatter : Prop :=
  ∀ (s : State) (a b : Inputs) (rest : List Event),
    (s.st = .idle → a.cmd = b.cmd) →
    (s.st = .begin → a.beginDone = b.beginDone ∧ (a.beginDone = true → a.beginOk = b.beginOk)) →
    (s.st = .transmit ∨ (s.st = .filterSet ∧ s.rqMode = .passiveListen) →
      a.errStatus = b.errStatus ∧ (a.errStatus = 0#8 → a.now = b.now)) →
    (s.st = .wait → s.rxq = [] → a.now = b.now) →
    step { s with env := .step a :: rest } = step { s with env := .step b :: rest }

/-- The statuses have the codes 0 to 6 of R210, so code 7 is never produced, the nine states have distinct codes up to 8 (R21),
and `cmd_ready` is 1 exactly in IDLE, `busy` exactly outside it (R190). -/
def Obligations.StatusCodesAndReadiness : Prop :=
  (∀ a b : Status, a.code = b.code → a = b) ∧ (∀ a : Status, a.code ≠ 7#3) ∧
  Status.ok.code = 0#3 ∧ Status.payloadTooLong.code = 1#3 ∧ Status.timedOut.code = 2#3 ∧ Status.busError.code = 3#3 ∧
  Status.initFailed.code = 4#3 ∧ Status.illegalCmd.code = 5#3 ∧ Status.badState.code = 6#3 ∧
  (∀ a b : Phase, a.code = b.code → a = b) ∧ (∀ a : Phase, a.code.toNat ≤ 8) ∧
  ∀ s : State, (s.cmdReady = true ↔ s.st = .idle) ∧ (s.busy = true ↔ s.st ≠ .idle)

/-! ## Construction (spec/40_construction.md) -/

/-- INIT before a successful construction writes the four configuration registers, asks the bus to begin and goes to BEGIN, with
no response and no filter change (R111). -/
def Obligations.InitAcceptanceStartsConstruction : Prop :=
  ∀ (debug : Bool) (node : CanId) (bitrate timeout : Word32) (s : State), s.st = .idle → s.inited = false →
    exec (.init debug node bitrate timeout) s =
      .next { s with nodeId := node, timeout := timeout, cfgBitrate := bitrate, cfgDebug := debug, st := .begin,
                     outs := s.outs ++ [.begin bitrate debug] }

/-- INIT after a successful construction is answered BAD_STATE and nothing else happens (R115). -/
def Obligations.InitAfterConstructionIsBadState : Prop :=
  ∀ (debug : Bool) (node : CanId) (bitrate timeout : Word32) (s : State), s.st = .idle → s.inited = true →
    exec (.init debug node bitrate timeout) s = .next { s with outs := s.outs ++ [.respond .badState SENTINEL] }

/-- A step in BEGIN waits while `begin_done` = 0 (R112), completes with the default filter installed on success (R113), and
answers INIT_FAILED on failure, `inited` and the filter left as they are (R114). -/
def Obligations.BeginWaitsCompletesOrFails : Prop :=
  ∀ (s u : State) (inp : Inputs), s.takeEvent = (.step inp, u) → u.st = .begin →
    (inp.beginDone = false → step s = .next u) ∧
    (inp.beginDone = true → inp.beginOk = true →
      step s = .next { u with ftab := [⟨u.nodeId, 0x7FF#11⟩], inited := true, st := .idle, outs := [.respond .ok 0#64] }) ∧
    (inp.beginDone = true → inp.beginOk = false →
      step s = .next { u with st := .idle, outs := [.respond .initFailed SENTINEL] })

/-- An INIT that the bus answers after any number of waiting steps completes with one response: constructed and filtering on the
node identifier, or failed and unconstructed (R110 to R114). -/
def Obligations.InitRunCompletes : Prop :=
  ∀ (s : State) (i0 done : Inputs) (waits : List Inputs) (rest : List Event) (w : CmdWord)
    (debug : Bool) (node : CanId) (bitrate timeout : Word32),
    s.st = .idle → s.inited = false → i0.cmd = some w → decode w = .ok (.init debug node bitrate timeout) →
    (∀ i ∈ waits, i.beginDone = false) → done.beginDone = true →
    s.env = .step i0 :: (waits.map Event.step ++ .step done :: rest) →
    steps (waits.length + 2) s =
      .next (if done.beginOk then
          { s with nodeId := node, timeout := timeout, cfgBitrate := bitrate, cfgDebug := debug, inited := true,
                   ftab := [⟨node, 0x7FF#11⟩], env := rest, outs := [.respond .ok 0#64] }
        else
          { s with nodeId := node, timeout := timeout, cfgBitrate := bitrate, cfgDebug := debug, env := rest,
                   outs := [.respond .initFailed SENTINEL] })

/-! ## Poll (spec/41_poll.md) -/

/-- POLL with a legal length latches the request, installs `(FILT, 0x7FF)` alone and goes to FILTER_SET, with no output event;
POLLH does the same with the header identifier as its filter identifier (R123, R136). -/
def Obligations.PollAcceptanceInstallsFilter : Prop :=
  ∀ (mode : Mode) (kind : Kind) (len : BitVec 8) (hdr filt : CanId) (payload : Value) (s : State),
    s.st = .idle → s.inited = true → len.toNat ≤ 8 →
    exec (.poll mode kind len hdr filt payload) s =
      .next { s with rqHdr := hdr, rqFilt := filt, rqMode := mode, rqKind := kind, rqLen := len.setWidth 4, rqData := payload,
                     ftab := [⟨filt, 0x7FF#11⟩], st := .filterSet } ∧
    exec (.pollh mode kind len hdr payload) s =
      .next { s with rqHdr := hdr, rqFilt := hdr, rqMode := mode, rqKind := kind, rqLen := len.setWidth 4, rqData := payload,
                     ftab := [⟨hdr, 0x7FF#11⟩], st := .filterSet }

/-- A length above 8 is answered PAYLOAD_TOO_LONG in the acceptance step and changes nothing else, for POLL and POLLH, in both
modes (R122, R211). -/
def Obligations.LongPayloadHasNoEffect : Prop :=
  ∀ (mode : Mode) (kind : Kind) (len : BitVec 8) (hdr filt : CanId) (payload : Value) (s : State),
    s.st = .idle → s.inited = true → 8 < len.toNat →
    exec (.poll mode kind len hdr filt payload) s = .next { s with outs := s.outs ++ [.respond .payloadTooLong SENTINEL] } ∧
    exec (.pollh mode kind len hdr payload) s = .next { s with outs := s.outs ++ [.respond .payloadTooLong SENTINEL] }

/-- In QUERY_RESPONSE mode FILTER_SET transmits the query frame: identifier `rq_hdr`, kind and length as latched, the first
`rq_len` payload bytes and 0x00 above them (R124, R125). -/
def Obligations.QueryFrameIsTransmitted : Prop :=
  ∀ (s u : State) (inp : Inputs), s.takeEvent = (.step inp, u) → u.st = .filterSet → u.rqMode = .queryResponse →
    ∃ f : Frame, f.id = u.rqHdr ∧ f.kind = u.rqKind ∧ f.len = u.rqLen ∧
      (∀ i, i < 8 → byteAt f.data i = if i < u.rqLen.toNat then u.rqData.extractLsb' (8 * i) 8 else 0#8) ∧
      step s = .next { u with st := .transmit, outs := [.tx f] }

/-- The transmit port carries the frame's bytes by the lane rule, those at and above the length 0x00 (R52, R190, R192). -/
def Obligations.TransmitPortMasksPayload : Prop :=
  ∀ (s u t : State) (inp : Inputs), s.takeEvent = (.step inp, u) → u.st = .filterSet → u.rqMode = .queryResponse →
    u.rqLen.toNat ≤ 8 → step s = .next t →
    t.txPort = some (u.rqHdr, u.rqKind.bit, u.rqLen, u.rqData &&& BitVec.ofNat 64 (2 ^ (8 * u.rqLen.toNat) - 1))

/-- The error check, from TRANSMIT or from FILTER_SET in PASSIVE_LISTEN mode, with no error: the clock is recorded and the wait
begins, with no output event (R126). -/
def Obligations.NoErrorEntersWait : Prop :=
  ∀ (s u : State) (inp : Inputs), s.takeEvent = (.step inp, u) →
    (u.st = .transmit ∨ (u.st = .filterSet ∧ u.rqMode = .passiveListen)) → inp.errStatus = 0#8 →
    step s = .next { u with t0 := inp.now, st := .wait }

/-- The error check with any non-zero status: one diagnostic frame to `node_id` with the open parameters, bytes at and above its
length 0x00, and BUS_ERROR with the sentinel prepared; the queue is not popped (R127, R213). -/
def Obligations.BusErrorSendsDiagnosticFrame : Prop :=
  ∀ (s u : State) (inp : Inputs), s.takeEvent = (.step inp, u) →
    (u.st = .transmit ∨ (u.st = .filterSet ∧ u.rqMode = .passiveListen)) → inp.errStatus ≠ 0#8 →
    ∃ f : Frame, f.id = u.nodeId ∧ f.kind = Config.params.diagKind ∧ f.len.toNat = Config.params.diagLen.val ∧
      (∀ i, i < 8 → byteAt f.data i =
        if i < Config.params.diagLen.val then byteAt Config.params.diagData i else 0#8) ∧
      step s = .next { u with outStatus := .busError, outValue := SENTINEL, st := .errored, outs := [.tx f] }

/-- A WAIT step with a frame queued takes the oldest and prepares its decoded value, whatever the deadline, its identifier and
its kind (R128, R137, R219). -/
def Obligations.QueuedFrameWinsOverDeadline : Prop :=
  ∀ (s u : State) (inp : Inputs) (f : Frame) (q : List Frame), s.takeEvent = (.step inp, u) → u.st = .wait →
    u.rxq = f :: q → f.len.toNat ≤ 8 →
    ∃ v : Value, v.toNat = ∑ k ∈ Finset.range f.len.toNat, (byteAt f.data k).toNat * 2 ^ (8 * k) ∧
      step s = .next { u with rxq := q, outStatus := .ok, outValue := v, st := .matched }

/-- A WAIT step with the queue empty times out exactly when `(now − t0) mod 2^32 ≥ timeout`, unsigned (R129), and else changes
nothing (R130). -/
def Obligations.EmptyQueueTimesOutAtDeadline : Prop :=
  ∀ (s u : State) (inp : Inputs), s.takeEvent = (.step inp, u) → u.st = .wait → u.rxq = [] →
    (u.timeout ≤ inp.now - u.t0 →
      step s = .next { u with outStatus := .timedOut, outValue := SENTINEL, st := .timedOut }) ∧
    (inp.now - u.t0 < u.timeout → step s = .next u)

/-- MATCHED, TIMED_OUT and ERRORED install the default filter again and go to FILTER_RESTORED, with no output event (R131, R132,
R133). -/
def Obligations.TerminalStatesRestoreFilter : Prop :=
  ∀ (s u : State) (inp : Inputs), s.takeEvent = (.step inp, u) →
    (u.st = .matched ∨ u.st = .timedOut ∨ u.st = .errored) →
    step s = .next { u with ftab := [⟨u.nodeId, 0x7FF#11⟩], st := .filterRestored }

/-- FILTER_RESTORED answers the prepared response and returns to IDLE (R134). -/
def Obligations.RestoredFilterAnswers : Prop :=
  ∀ (s u : State) (inp : Inputs), s.takeEvent = (.step inp, u) → u.st = .filterRestored →
    step s = .next { u with st := .idle, outs := [.respond u.outStatus u.outValue] }

/-- The complete transition relation of `st`, row by row of R138. -/
def Obligations.TransitionRelation : Prop :=
  ∀ (s u : State) (inp : Inputs), s.Inv → s.takeEvent = (.step inp, u) → ∃ t : State, step s = .next t ∧
    (s.st = .idle → inp.cmd = none → t.st = .idle) ∧
    (s.st = .idle → ∀ w, inp.cmd = some w →
      ((∀ i, decode w ≠ .ok i) → t.st = .idle) ∧
      (∀ debug node bitrate timeout, decode w = .ok (.init debug node bitrate timeout) →
        t.st = if s.inited then .idle else .begin) ∧
      (∀ timeout, decode w = .ok (.setTimeout timeout) → t.st = .idle) ∧
      (∀ len operand, decode w = .ok (.decode len operand) → t.st = .idle) ∧
      (∀ i mode kind len hdr filt payload, decode w = .ok i → i.request = some (mode, kind, len, hdr, filt, payload) →
        t.st = if s.inited = true ∧ len.toNat ≤ 8 then .filterSet else .idle)) ∧
    (s.st = .begin → t.st = if inp.beginDone then .idle else .begin) ∧
    (s.st = .filterSet → s.rqMode = .queryResponse → t.st = .transmit) ∧
    (s.st = .filterSet → s.rqMode = .passiveListen → t.st = if inp.errStatus = 0#8 then .wait else .errored) ∧
    (s.st = .transmit → t.st = if inp.errStatus = 0#8 then .wait else .errored) ∧
    (s.st = .wait → t.st =
      if s.rxq ≠ [] then .matched else if s.timeout ≤ inp.now - s.t0 then .timedOut else .wait) ∧
    (s.st = .matched ∨ s.st = .timedOut ∨ s.st = .errored → t.st = .filterRestored) ∧
    (s.st = .filterRestored → t.st = .idle)

/-- A poll in whose wait no frame arrives: after the acceptance step, the transmit step in QUERY_RESPONSE mode, the error check
and `n` WAIT steps of which only the last finds the deadline passed, two more steps answer TIMED_OUT with the sentinel, the
default filter installed: 5 + n or 4 + n steps (R140). -/
def Obligations.PollTimesOutInItsSteps : Prop :=
  ∀ (s : State) (i0 check last i4 i5 : Inputs) (query waits : List Inputs) (rest : List Event) (w : CmdWord) (i : Instr)
    (mode : Mode) (kind : Kind) (len : BitVec 8) (hdr filt : CanId) (payload : Value),
    s.st = .idle → s.inited = true → s.rxq = [] → i0.cmd = some w → decode w = .ok i →
    i.request = some (mode, kind, len, hdr, filt, payload) → len.toNat ≤ 8 →
    query.length = (if mode = .queryResponse then 1 else 0) → check.errStatus = 0#8 →
    (∀ j ∈ waits, j.now - check.now < s.timeout) → s.timeout ≤ last.now - check.now →
    s.env = .step i0 :: (query.map Event.step ++ .step check :: (waits.map Event.step ++
      .step last :: .step i4 :: .step i5 :: rest)) →
    steps (4 + query.length + (waits.length + 1)) s =
      .next { s with rqHdr := hdr, rqFilt := filt, rqMode := mode, rqKind := kind, rqLen := len.setWidth 4, rqData := payload,
                     t0 := check.now, outStatus := .timedOut, outValue := SENTINEL, ftab := [⟨s.nodeId, 0x7FF#11⟩],
                     env := rest, outs := [.respond .timedOut SENTINEL] }

/-- A poll during whose wait a frame with the filter's identifier arrives, after any number of WAIT steps before the deadline,
answers OK with the decoded value, the default filter installed: 5 + n or 4 + n steps and the arrival (R140, R128, R178). -/
def Obligations.PollAnswersArrivingFrame : Prop :=
  ∀ (s : State) (i0 check last i4 i5 : Inputs) (query waits : List Inputs) (f : Frame) (v : Value) (rest : List Event)
    (w : CmdWord) (i : Instr) (mode : Mode) (kind : Kind) (len : BitVec 8) (hdr filt : CanId) (payload : Value),
    s.st = .idle → s.inited = true → s.rxq = [] → i0.cmd = some w → decode w = .ok i →
    i.request = some (mode, kind, len, hdr, filt, payload) → len.toNat ≤ 8 →
    query.length = (if mode = .queryResponse then 1 else 0) → check.errStatus = 0#8 →
    (∀ j ∈ waits, j.now - check.now < s.timeout) → f.id = filt → decodeBytes f.data f.len.toNat = some v →
    s.env = .step i0 :: (query.map Event.step ++ .step check :: (waits.map Event.step ++
      .arrive f :: .step last :: .step i4 :: .step i5 :: rest)) →
    steps (4 + query.length + (waits.length + 1) + 1) s =
      .next { s with rqHdr := hdr, rqFilt := filt, rqMode := mode, rqKind := kind, rqLen := len.setWidth 4, rqData := payload,
                     t0 := check.now, outStatus := .ok, outValue := v, ftab := [⟨s.nodeId, 0x7FF#11⟩],
                     env := rest, outs := [.respond .ok v] }

/-- A poll that meets a bus error answers BUS_ERROR with the sentinel in 5 or 4 steps, the default filter installed and the
queue as it was, even with a frame queued (R140, R127, R219). -/
def Obligations.PollStopsAtBusError : Prop :=
  ∀ (s : State) (i0 check i4 i5 : Inputs) (query : List Inputs) (rest : List Event) (w : CmdWord) (i : Instr)
    (mode : Mode) (kind : Kind) (len : BitVec 8) (hdr filt : CanId) (payload : Value),
    s.st = .idle → s.inited = true → i0.cmd = some w → decode w = .ok i →
    i.request = some (mode, kind, len, hdr, filt, payload) → len.toNat ≤ 8 →
    query.length = (if mode = .queryResponse then 1 else 0) → check.errStatus ≠ 0#8 →
    s.env = .step i0 :: (query.map Event.step ++ .step check :: .step i4 :: .step i5 :: rest) →
    steps (4 + query.length) s =
      .next { s with rqHdr := hdr, rqFilt := filt, rqMode := mode, rqKind := kind, rqLen := len.setWidth 4, rqData := payload,
                     outStatus := .busError, outValue := SENTINEL, ftab := [⟨s.nodeId, 0x7FF#11⟩],
                     env := rest, outs := [.respond .busError SENTINEL] }

/-- The stale frame hazard (R243 a): with no bus error, a poll answers with the oldest frame already queued when it is accepted,
whatever that frame's identifier and the poll's filter, and leaves the others queued. -/
def Obligations.PollAnswersStaleFrame : Prop :=
  ∀ (s : State) (i0 check last i4 i5 : Inputs) (query : List Inputs) (f : Frame) (q : List Frame) (v : Value)
    (rest : List Event) (w : CmdWord) (i : Instr) (mode : Mode) (kind : Kind) (len : BitVec 8) (hdr filt : CanId)
    (payload : Value),
    s.st = .idle → s.inited = true → s.rxq = f :: q → i0.cmd = some w → decode w = .ok i →
    i.request = some (mode, kind, len, hdr, filt, payload) → len.toNat ≤ 8 →
    query.length = (if mode = .queryResponse then 1 else 0) → check.errStatus = 0#8 →
    decodeBytes f.data f.len.toNat = some v →
    s.env = .step i0 :: (query.map Event.step ++ .step check :: .step last :: .step i4 :: .step i5 :: rest) →
    ∃ t : State, steps (5 + query.length) s = .next t ∧ t.outs = [.respond .ok v] ∧ t.rxq = q ∧
      t.ftab = [⟨s.nodeId, 0x7FF#11⟩] ∧ t.st = .idle ∧ t.env = rest

/-- Self-reception (R245): if the bus delivers the query frame back, a QUERY_RESPONSE poll whose filter identifier is its header
identifier, every POLLH and a POLL with `FILT` = `HDR`, answers OK with the decode of its own payload. -/
def Obligations.LoopedQueryIsItsOwnAnswer : Prop :=
  ∀ (s : State) (i0 i1 check last i4 i5 : Inputs) (f : Frame) (t : State) (v : Value) (rest : List Event) (w : CmdWord)
    (i : Instr) (kind : Kind) (len : BitVec 8) (hdr : CanId) (payload : Value),
    s.st = .idle → s.inited = true → s.rxq = [] → i0.cmd = some w → decode w = .ok i →
    i.request = some (.queryResponse, kind, len, hdr, hdr, payload) → len.toNat ≤ 8 → check.errStatus = 0#8 →
    s.env = .step i0 :: .step i1 :: .arrive f :: .step check :: .step last :: .step i4 :: .step i5 :: rest →
    steps 2 s = .next t → t.outs = [.tx f] → decodeBytes (bytes payload) len.toNat = some v →
    ∃ r : State, steps 7 s = .next r ∧ r.outs = [.respond .ok v] ∧ r.st = .idle

/-! ## SET_TIMEOUT and DECODE (spec/42_change_timeout.md, spec/43_decode.md) -/

/-- SET_TIMEOUT on a constructed block replaces `timeout` and answers (OK, 0); on an unconstructed one it answers BAD_STATE; a word
with its opcode and a reserved bit set answers ILLEGAL_CMD. Nothing else changes in any of the three (R150). -/
def Obligations.SetTimeoutReplacesTimeout : Prop :=
  (∀ (timeout : Word32) (s : State), s.st = .idle → s.inited = true →
    exec (.setTimeout timeout) s = .next { s with timeout := timeout, outs := s.outs ++ [.respond .ok 0#64] }) ∧
  (∀ (timeout : Word32) (s : State), s.st = .idle → s.inited = false →
    exec (.setTimeout timeout) s = .next { s with outs := s.outs ++ [.respond .badState SENTINEL] }) ∧
  ∀ (s u : State) (inp : Inputs) (w : CmdWord), s.takeEvent = (.step inp, u) → u.st = .idle → inp.cmd = some w →
    fieldOp w = 4#4 → rowSetTimeout.selects w = false →
    step s = .next { u with outs := [.respond .illegalCmd SENTINEL] }

/-- After two SET_TIMEOUTs the state is that of the second alone, but for the two responses: no bit of the previous value
survives (R153). -/
def Obligations.LastSetTimeoutWins : Prop :=
  ∀ (a b : Word32) (s t : State), s.st = .idle → s.inited = true → exec (.setTimeout a) s = .next t →
    exec (.setTimeout b) t =
      .next { s with timeout := b, outs := s.outs ++ [.respond .ok 0#64, .respond .ok 0#64] }

/-- DECODE answers OK with the little-endian sum of the first `LEN` bytes, whatever `inited` is, and changes nothing else (R160,
R164). -/
def Obligations.DecodeCommandAnswersSum : Prop :=
  ∀ (len : BitVec 8) (operand : Value) (s : State), s.st = .idle → len.toNat ≤ 8 →
    ∃ v : Value, v.toNat = ∑ k ∈ Finset.range len.toNat, (operand.extractLsb' (8 * k) 8).toNat * 2 ^ (8 * k) ∧
      exec (.decode len operand) s = .next { s with outs := s.outs ++ [.respond .ok v] }

/-- DECODE with a length above 8 is answered ILLEGAL_CMD and changes nothing else, and the function has no value there (R163). -/
def Obligations.DecodeOfLongLengthIsIllegal : Prop :=
  (∀ (len : BitVec 8) (operand : Value) (s : State), s.st = .idle → 8 < len.toNat →
    exec (.decode len operand) s = .next { s with outs := s.outs ++ [.respond .illegalCmd SENTINEL] }) ∧
  ∀ (b : Bytes) (n : Nat), 8 < n → decodeBytes b n = none

/-- The function `decode`: its value is the little-endian sum of the first `n` bytes, and its bits `8k+7:8k` are byte `k` below
`n` and 0x00 from `n` on (R161). -/
def Obligations.DecodeFunctionIsLittleEndian : Prop :=
  ∀ (b : Bytes) (n : Nat), n ≤ 8 → ∃ v : Value, decodeBytes b n = some v ∧
    v.toNat = ∑ k ∈ Finset.range n, (byteAt b k).toNat * 2 ^ (8 * k) ∧
    ∀ k, k < 8 → v.extractLsb' (8 * k) 8 = if k < n then byteAt b k else 0#8

/-- The properties of `decode` the spec lists (R162): (a) length 0 gives 0; (b) injective for each length; (c) not across
lengths; (d) below `2^{8n}`; (e) the sentinel exactly for eight bytes of 0xFF; (f) on a 64-bit carrier it keeps the low `8n`
bits. -/
def Obligations.DecodeFunctionProperties : Prop :=
  (∀ b : Bytes, decodeBytes b 0 = some 0#64) ∧
  (∀ (b c : Bytes) (n : Nat), n ≤ 8 → decodeBytes b n = decodeBytes c n → ∀ k, k < n → byteAt b k = byteAt c k) ∧
  (∀ b : Bytes, byteAt b 0 = 0x2A#8 → byteAt b 1 = 0x00#8 →
    decodeBytes b 1 = some 42#64 ∧ decodeBytes b 2 = some 42#64) ∧
  (∀ (b : Bytes) (n : Nat) (v : Value), decodeBytes b n = some v → v.toNat < 2 ^ (8 * n)) ∧
  (∀ (b : Bytes) (n : Nat), decodeBytes b n = some SENTINEL ↔ n = 8 ∧ ∀ k, k < 8 → byteAt b k = 0xFF#8) ∧
  (∀ v : Value, decodeBytes (bytes v) 8 = some v) ∧
  ∀ (v : Value) (n : Nat), n ≤ 8 → decodeBytes (bytes v) n = some (v &&& BitVec.ofNat 64 (2 ^ (8 * n) - 1))

/-- The byte-lane rule: byte `i` of the array is bits `8i+7:8i` of the carrier, in both directions (R52). -/
def Obligations.ByteLanesAreInverse : Prop :=
  (∀ v : Value, carrier (bytes v) = v) ∧ (∀ b : Bytes, bytes (carrier b) = b) ∧
  ∀ (v : Value) (i : Nat), i < 8 → byteAt (bytes v) i = v.extractLsb' (8 * i) 8

/-! ## Filter, queue, arrivals (spec/44_setfilter.md, spec/20_memory.md) -/

/-- An entry accepts by its mask, and the exact mask accepts the one identifier (R170); a table accepts what some entry accepts
(R171; for several entries that is the spec's "[from general knowledge, not in source]", item G1, and the model's choice,
notes/assumptions/12.md); the empty table accepts nothing (R180). -/
def Obligations.FilterAcceptsByMask : Prop :=
  (∀ (id mask x : CanId), accept [⟨id, mask⟩] x = true ↔ x &&& mask = id &&& mask) ∧
  (∀ id x : CanId, accept [⟨id, 0x7FF#11⟩] x = true ↔ x = id) ∧
  (∀ (table : List FilterEntry) (x : CanId), accept table x = true ↔ ∃ e ∈ table, x &&& e.mask = e.id &&& e.mask) ∧
  ∀ x : CanId, accept [] x = false

/-- SETFILTER leaves the one entry `(id, 0x7FF)` whatever the table held, changes nothing else and always succeeds; the default
form takes `node_id` (R174, R175). CLEARFILTERS empties the table (R172); ADDFILTER appends while the table has fewer than `NFILT`
entries (R173). That it has no result on a full table is the model's reading of "is given no meaning" (DEDUCED,
notes/assumptions/10.md). -/
def Obligations.SetFilterReplacesTable : Prop :=
  ∀ (p : Params) (s : State) (id mask : CanId),
    s.setFilter p id = some { s with ftab := [⟨id, 0x7FF#11⟩] } ∧
    s.setFilterDefault p = some { s with ftab := [⟨s.nodeId, 0x7FF#11⟩] } ∧
    s.clearFilters = { s with ftab := [] } ∧
    (s.ftab.length < p.nfilt → s.addFilter p id mask = some { s with ftab := s.ftab ++ [⟨id, mask⟩] }) ∧
    (p.nfilt ≤ s.ftab.length → s.addFilter p id mask = none)

/-- An arrival within the contract is queued at the tail if the filter accepts it and the queue has room, and else changes
nothing, in every state of `st` (R178, R179). That a frame longer than 8 bytes is refused is the model's form of "no move in the
model" (R196; DEDUCED, notes/assumptions/8.md). -/
def Obligations.ArrivalQueuesAcceptedFrame : Prop :=
  ∀ (s u : State) (f : Frame), s.takeEvent = (.arrive f, u) →
    (f.len.toNat ≤ 8 → accept u.ftab f.id = true → u.rxq.length < Config.params.rxqDepth →
      step s = .next { u with rxq := u.rxq ++ [f] }) ∧
    (f.len.toNat ≤ 8 → accept u.ftab f.id = false ∨ Config.params.rxqDepth ≤ u.rxq.length → step s = .next u) ∧
    (8 < f.len.toNat → step s = .refused .arrivalLength)

/-- The queue changes in three ways only: an accepted frame enters at the tail by an arrival, the head leaves in a WAIT step, a
reset empties it (R30). -/
def Obligations.QueueChangesOnlyByArrivalPopReset : Prop :=
  ∀ s t : State, step s = .next t →
    t.rxq = s.rxq ∨
    (∃ f : Frame, s.takeEvent.1 = .arrive f ∧ accept s.ftab f.id = true ∧ s.rxq.length < Config.params.rxqDepth ∧
      t.rxq = s.rxq ++ [f]) ∨
    (∃ (inp : Inputs) (f : Frame), s.takeEvent.1 = .step inp ∧ s.st = .wait ∧ t.st = .matched ∧ s.rxq = f :: t.rxq) ∨
    (s.takeEvent.1 = .reset ∧ t.rxq = [])

/-- The filter table changes by whole replacement only: to the poll's entry at a poll's acceptance, to the default entry when a
construction completes or a poll ends, to empty at reset (R29, R61, R177). -/
def Obligations.FilterChangesOnlyByReplacement : Prop :=
  ∀ s t : State, step s = .next t →
    t.ftab = s.ftab ∨
    (s.st = .idle ∧ s.inited = true ∧ t.st = .filterSet ∧ t.ftab = [t.pollEntry]) ∨
    (s.st = .begin ∧ t.st = .idle ∧ t.inited = true ∧ t.ftab = [t.defaultEntry]) ∨
    ((s.st = .matched ∨ s.st = .timedOut ∨ s.st = .errored) ∧ t.st = .filterRestored ∧ t.ftab = [t.defaultEntry]) ∨
    (s.takeEvent.1 = .reset ∧ t.ftab = [])

/-- The filter window (R249): while a poll's filter is installed, a frame for the node is lost unless the poll listens to the
node's identifier, and a frame for the poll's filter is queued if there is room. -/
def Obligations.FilterWindow : Prop :=
  ∀ (s u : State) (f : Frame), s.Inv → s.st.filtering = true → s.takeEvent = (.arrive f, u) → f.len.toNat ≤ 8 →
    (f.id = s.nodeId → s.nodeId ≠ s.rqFilt → step s = .next u) ∧
    (f.id = s.rqFilt → s.rxq.length < Config.params.rxqDepth → step s = .next { u with rxq := u.rxq ++ [f] })

/-- Until a construction has succeeded no arrival is accepted (R241, R180). -/
def Obligations.UnconstructedBlockAcceptsNoFrame : Prop :=
  ∀ (s u : State) (f : Frame), s.Inv → s.inited = false → s.takeEvent = (.arrive f, u) → f.len.toNat ≤ 8 →
    step s = .next u

/-! ## Failures, time, reset (spec/60_exceptions.md, spec/70_reset_and_hazards.md) -/

/-- The sentinel rule (R217): in a state that meets the invariants, a response with a status other than OK carries the sentinel. -/
def Obligations.FailureCarriesSentinel : Prop :=
  ∀ (s t : State) (status : Status) (value : Value), s.Inv → step s = .next t → .respond status value ∈ t.outs →
    status ≠ .ok → value = SENTINEL

/-- What a step transmits (R192): one frame, in FILTER_SET in QUERY_RESPONSE mode or at an error check that finds an error, and
none at all otherwise: no acceptance, arrival or reset transmits. -/
def Obligations.OnlyQueryAndDiagnosticTransmit : Prop :=
  ∀ s t : State, step s = .next t → t.transmissions ≤ 1 ∧
    (t.transmissions = 1 ↔ ∃ inp : Inputs, s.takeEvent.1 = .step inp ∧
      ((s.st = .filterSet ∧ s.rqMode = .queryResponse) ∨
       ((s.st = .transmit ∨ (s.st = .filterSet ∧ s.rqMode = .passiveListen)) ∧ inp.errStatus ≠ 0#8)))

/-- After a successful construction nothing but a reset changes `node_id`, `cfg_bitrate`, `cfg_debug` or `inited` (R22, R24, R25,
R115). -/
def Obligations.ConfigurationIsImmutable : Prop :=
  ∀ s t : State, s.inited = true → s.takeEvent.1 ≠ .reset → step s = .next t →
    t.nodeId = s.nodeId ∧ t.cfgBitrate = s.cfgBitrate ∧ t.cfgDebug = s.cfgDebug ∧ t.inited = true

/-- `timeout` changes only in IDLE, by an accepted INIT or SET_TIMEOUT, so never during a poll; a reset apart (R23, R151, R152). -/
def Obligations.TimeoutChangesOnlyByItsCommands : Prop :=
  ∀ s t : State, s.takeEvent.1 ≠ .reset → step s = .next t →
    t.timeout = s.timeout ∨
    (s.st = .idle ∧ ∃ (inp : Inputs) (w : CmdWord), s.takeEvent.1 = .step inp ∧ inp.cmd = some w ∧
      (decode w = .ok (.setTimeout t.timeout) ∨
       ∃ debug node bitrate, decode w = .ok (.init debug node bitrate t.timeout)))

/-- The deadline test on a clock that carries a true, non-decreasing count modulo 2^32: it compares the true elapsed time modulo
2^32 with the timeout, so one wrap is harmless (R129, R195, R246). -/
def Obligations.DeadlineMeasuresTrueElapsedTime : Prop :=
  ∀ (start current : Nat) (timeout : Word32), start ≤ current →
    (deadlinePassed (BitVec.ofNat 32 current) (BitVec.ofNat 32 start) timeout = true ↔
      timeout.toNat ≤ (current - start) % 2 ^ 32)

/-- Reset, in any state: `st`, `inited`, `ftab` and `rxq` go to their reset values and no output event is caused, so a command in
progress is dropped without a response (R240, R37). The values of the other registers are the model's choice
(notes/assumptions/1.md and 2.md) and not stated. -/
def Obligations.ResetDropsEverything : Prop :=
  (State.reset.st = .idle ∧ State.reset.inited = false ∧ State.reset.ftab = [] ∧ State.reset.rxq = [] ∧
    State.reset.busy = false ∧ State.reset.cmdReady = true) ∧
  ∀ s u : State, s.takeEvent = (.reset, u) → ∃ t : State, step s = .next t ∧
    t.st = .idle ∧ t.inited = false ∧ t.ftab = [] ∧ t.rxq = [] ∧ t.outs = [] ∧ t.env = u.env ∧ t.draws = u.draws

/-! ## Invariants and whole-machine statements -/

/-- The invariants of R34, as `State.Inv` holds them, hold after reset. -/
def Obligations.ResetMeetsInvariants : Prop := State.reset.Inv

/-- Every step of every event keeps the invariants of R34: I-a to I-e and, of I-g, that a queued frame has at most 8 bytes. The other
half of I-g, that its identifier was accepted by the table when it arrived, is about the past and is not in `State.Inv`; it is
the arrival clause of `QueueChangesOnlyByArrivalPopReset`. -/
def Obligations.StepKeepsInvariants : Prop := ∀ s t : State, s.Inv → step s = .next t → t.Inv

/-- In a state that meets the invariants, every event within the environment's contract has a next state: no failure stops the
block and nothing is refused (R11, R87, R220). -/
def Obligations.InvariantStatesNeverStop : Prop :=
  ∀ s : State, s.Inv → s.takeEvent.1.inContract = true → ∃ t : State, step s = .next t

/-- At every response of a constructed block, of whatever command, the filter is the default one; of an unconstructed block it is
empty (R135). -/
def Obligations.ResponseFindsDefaultFilter : Prop :=
  ∀ s t : State, s.Inv → step s = .next t → 0 < t.responses →
    t.st = .idle ∧ t.ftab = if t.inited then [t.defaultEntry] else []

/-- Responses and accepted commands balance (R10): over any number of steps without a reset, the responses emitted, with the command
in progress at the end, are as many as the commands accepted, with the command in progress at the start. It promises no
response to a command that never ends: a hang in BEGIN or WAIT keeps the balance too (R112, R253). -/
def Obligations.ResponsesBalanceAcceptedCommands : Prop :=
  ∀ (n accepted responses : Nat) (s t : State), tally n s = some (accepted, responses, t) →
    responses + t.busy.toNat = accepted + s.busy.toNat

/-- A step cannot tell apart two states that differ only in registers it may not read: its answers differ in such registers
only (R26, R27, R28, R37, R139). -/
def Obligations.DeadRegistersDoNotShow : Prop := ∀ s t : State, SameLive s t → SameLiveResult (step s) (step t)

/-- Whatever the registers that the spec leaves unspecified hold after reset, the same inputs give the same output events in
every step: no register is read before it is written (R37). -/
def Obligations.UnspecifiedResetRegistersNeverShow : Prop :=
  ∀ (n : Nat) (s t : State), s.st = .idle → s.inited = false → s.ftab = [] → s.rxq = [] → s.outs = [] →
    t.st = .idle → t.inited = false → t.ftab = [] → t.rxq = [] → t.outs = [] → s.env = t.env → s.draws = t.draws →
    trace n s = trace n t

/-! ## Ports (spec/45_bus_interface.md R190) -/

/-- The ports show what a step does and the frame that arrives. A step causes at most one output event; each of the response ports
(status code and value, R93, R210), the transmit ports (R192) and the `begin` ports (R191) is valid exactly when the step caused
that event, and then carries its fields. The arrival ports stand for the frame with their identifier, kind, length and byte lanes,
in the layout of the transmit ports (R52, R190, R196). That a port that is not valid shows no value is the model's choice
(DESIGN CHOICE, notes/assumptions/18.md). -/
def Obligations.PortsShowEventsAndFrames : Prop :=
  (∀ s t : State, step s = .next t → t.outs.length ≤ 1 ∧
    (∀ code value, t.rspPort = some (code, value) ↔ ∃ status : Status, code = status.code ∧ .respond status value ∈ t.outs) ∧
    (∀ id kind len data, t.txPort = some (id, kind, len, data) ↔
      ∃ f : Frame, id = f.id ∧ kind = f.kind.bit ∧ len = f.len ∧ data = carrier f.data ∧ .tx f ∈ t.outs) ∧
    ∀ rate loopback, t.beginPort = some (rate, loopback) ↔ .begin rate loopback ∈ t.outs) ∧
  (∀ (id : CanId) (kind : Bool) (len : BitVec 4) (data : Value),
    (frameOfPorts id kind len data).id = id ∧ (frameOfPorts id kind len data).kind.bit = kind ∧
    (frameOfPorts id kind len data).len = len ∧
    ∀ i, i < 8 → byteAt (frameOfPorts id kind len data).data i = data.extractLsb' (8 * i) 8) ∧
  ∀ f : Frame, frameOfPorts f.id f.kind.bit f.len (carrier f.data) = f
end

