-- ==== Sys2Proof/Laws/Encoding.lean ====
section
/-! SUPPORT. The fields of an assembled word are the fields it was assembled from (R81). -/

namespace Sys2Proof

variable (op : BitVec 4) (f1 f0 : Bool) (len : BitVec 8) (ida idb : CanId) (data : Value)

@[simp] theorem fieldOp_assemble : fieldOp (assemble op f1 f0 len ida idb data) = op := by
  apply BitVec.eq_of_getLsbD_eq
  intro i hi
  simp only [fieldOp, BitVec.getLsbD_extractLsb', hi, decide_true, Bool.true_and, assemble]
  simp (disch := omega) only [BitVec.getLsbD_append, if_neg]
  exact congrArg op.getLsbD (by omega)

@[simp] theorem fieldLen_assemble : fieldLen (assemble op f1 f0 len ida idb data) = len := by
  apply BitVec.eq_of_getLsbD_eq
  intro i hi
  simp only [fieldLen, BitVec.getLsbD_extractLsb', hi, decide_true, Bool.true_and, assemble]
  simp (disch := omega) only [BitVec.getLsbD_append, if_neg, if_pos]
  exact congrArg len.getLsbD (by omega)

@[simp] theorem fieldIdA_assemble : fieldIdA (assemble op f1 f0 len ida idb data) = ida := by
  apply BitVec.eq_of_getLsbD_eq
  intro i hi
  simp only [fieldIdA, BitVec.getLsbD_extractLsb', hi, decide_true, Bool.true_and, assemble]
  simp (disch := omega) only [BitVec.getLsbD_append, if_neg, if_pos]
  exact congrArg ida.getLsbD (by omega)

@[simp] theorem fieldIdB_assemble : fieldIdB (assemble op f1 f0 len ida idb data) = idb := by
  apply BitVec.eq_of_getLsbD_eq
  intro i hi
  simp only [fieldIdB, BitVec.getLsbD_extractLsb', hi, decide_true, Bool.true_and, assemble]
  simp (disch := omega) only [BitVec.getLsbD_append, if_neg, if_pos]
  exact congrArg idb.getLsbD (by omega)

@[simp] theorem fieldData_assemble : fieldData (assemble op f1 f0 len ida idb data) = data := by
  apply BitVec.eq_of_getLsbD_eq
  intro i hi
  simp only [fieldData, BitVec.getLsbD_extractLsb', hi, decide_true, Bool.true_and, assemble]
  simp (disch := omega) only [BitVec.getLsbD_append, if_pos]
  exact congrArg data.getLsbD (by omega)

@[simp] theorem fieldF1_assemble : fieldF1 (assemble op f1 f0 len ida idb data) = f1 := by
  have h : (assemble op f1 f0 len ida idb data).extractLsb' 123 1 = BitVec.ofBool f1 := by
    apply BitVec.eq_of_getLsbD_eq
    intro i hi
    simp only [BitVec.getLsbD_extractLsb', hi, decide_true, Bool.true_and, assemble]
    simp (disch := omega) only [BitVec.getLsbD_append, if_neg, if_pos]
    exact congrArg (BitVec.ofBool f1).getLsbD (by omega)
  rw [fieldF1, h]
  cases f1 <;> rfl

@[simp] theorem fieldF0_assemble : fieldF0 (assemble op f1 f0 len ida idb data) = f0 := by
  have h : (assemble op f1 f0 len ida idb data).extractLsb' 122 1 = BitVec.ofBool f0 := by
    apply BitVec.eq_of_getLsbD_eq
    intro i hi
    simp only [BitVec.getLsbD_extractLsb', hi, decide_true, Bool.true_and, assemble]
    simp (disch := omega) only [BitVec.getLsbD_append, if_neg, if_pos]
    exact congrArg (BitVec.ofBool f0).getLsbD (by omega)
  rw [fieldF0, h]
  cases f0 <;> rfl

/-- `BITRATE` and `TIMEOUT` are the high and the low half of `DATA` (R81). -/
@[simp] theorem fieldBitrate_assemble (b t : Word32) :
    fieldBitrate (assemble op f1 f0 len ida idb (b ++ t)) = b := by
  apply BitVec.eq_of_getLsbD_eq
  intro i hi
  simp only [fieldBitrate, BitVec.getLsbD_extractLsb', hi, decide_true, Bool.true_and, assemble]
  simp (disch := omega) only [BitVec.getLsbD_append, if_neg, if_pos]
  exact congrArg b.getLsbD (by omega)

@[simp] theorem fieldTimeout_assemble (b t : Word32) :
    fieldTimeout (assemble op f1 f0 len ida idb (b ++ t)) = t := by
  apply BitVec.eq_of_getLsbD_eq
  intro i hi
  simp only [fieldTimeout, BitVec.getLsbD_extractLsb', hi, decide_true, Bool.true_and, assemble]
  simp (disch := omega) only [BitVec.getLsbD_append, if_pos]
  exact congrArg t.getLsbD (by omega)

@[simp] theorem Mode.ofBit_bit (m : Mode) : Mode.ofBit m.bit = m := by cases m <;> rfl

@[simp] theorem Mode.bit_ofBit (b : Bool) : (Mode.ofBit b).bit = b := by cases b <;> rfl

@[simp] theorem Kind.ofBit_bit (k : Kind) : Kind.ofBit k.bit = k := by cases k <;> rfl

@[simp] theorem Kind.bit_ofBit (b : Bool) : (Kind.ofBit b).bit = b := by cases b <;> rfl

end Sys2Proof
end

