-- ==== Sys2Proof/Laws/State.lean ====
section
/-! SUPPORT. One lemma per field per named update of State: what the field is after the update. -/

namespace Sys2Proof.Machine

variable (s : State)

/-! ## `State.emit` -/

@[simp] theorem State.emit_st (e : OutEvent) : (s.emit e).st = s.st := rfl
@[simp] theorem State.emit_inited (e : OutEvent) : (s.emit e).inited = s.inited := rfl
@[simp] theorem State.emit_nodeId (e : OutEvent) : (s.emit e).nodeId = s.nodeId := rfl
@[simp] theorem State.emit_timeout (e : OutEvent) : (s.emit e).timeout = s.timeout := rfl
@[simp] theorem State.emit_cfgBitrate (e : OutEvent) : (s.emit e).cfgBitrate = s.cfgBitrate := rfl
@[simp] theorem State.emit_cfgDebug (e : OutEvent) : (s.emit e).cfgDebug = s.cfgDebug := rfl
@[simp] theorem State.emit_rqHdr (e : OutEvent) : (s.emit e).rqHdr = s.rqHdr := rfl
@[simp] theorem State.emit_rqFilt (e : OutEvent) : (s.emit e).rqFilt = s.rqFilt := rfl
@[simp] theorem State.emit_rqMode (e : OutEvent) : (s.emit e).rqMode = s.rqMode := rfl
@[simp] theorem State.emit_rqKind (e : OutEvent) : (s.emit e).rqKind = s.rqKind := rfl
@[simp] theorem State.emit_rqLen (e : OutEvent) : (s.emit e).rqLen = s.rqLen := rfl
@[simp] theorem State.emit_rqData (e : OutEvent) : (s.emit e).rqData = s.rqData := rfl
@[simp] theorem State.emit_t0 (e : OutEvent) : (s.emit e).t0 = s.t0 := rfl
@[simp] theorem State.emit_outStatus (e : OutEvent) : (s.emit e).outStatus = s.outStatus := rfl
@[simp] theorem State.emit_outValue (e : OutEvent) : (s.emit e).outValue = s.outValue := rfl
@[simp] theorem State.emit_ftab (e : OutEvent) : (s.emit e).ftab = s.ftab := rfl
@[simp] theorem State.emit_rxq (e : OutEvent) : (s.emit e).rxq = s.rxq := rfl
@[simp] theorem State.emit_env (e : OutEvent) : (s.emit e).env = s.env := rfl
@[simp] theorem State.emit_draws (e : OutEvent) : (s.emit e).draws = s.draws := rfl
@[simp] theorem State.emit_outs (e : OutEvent) : (s.emit e).outs = s.outs ++ [e] := rfl

/-! ## `State.respond` -/

@[simp] theorem State.respond_st (status : Status) (value : Value) : (s.respond status value).st = s.st := rfl
@[simp] theorem State.respond_inited (status : Status) (value : Value) : (s.respond status value).inited = s.inited := rfl
@[simp] theorem State.respond_nodeId (status : Status) (value : Value) : (s.respond status value).nodeId = s.nodeId := rfl
@[simp] theorem State.respond_timeout (status : Status) (value : Value) : (s.respond status value).timeout = s.timeout := rfl
@[simp] theorem State.respond_cfgBitrate (status : Status) (value : Value) : (s.respond status value).cfgBitrate = s.cfgBitrate := rfl
@[simp] theorem State.respond_cfgDebug (status : Status) (value : Value) : (s.respond status value).cfgDebug = s.cfgDebug := rfl
@[simp] theorem State.respond_rqHdr (status : Status) (value : Value) : (s.respond status value).rqHdr = s.rqHdr := rfl
@[simp] theorem State.respond_rqFilt (status : Status) (value : Value) : (s.respond status value).rqFilt = s.rqFilt := rfl
@[simp] theorem State.respond_rqMode (status : Status) (value : Value) : (s.respond status value).rqMode = s.rqMode := rfl
@[simp] theorem State.respond_rqKind (status : Status) (value : Value) : (s.respond status value).rqKind = s.rqKind := rfl
@[simp] theorem State.respond_rqLen (status : Status) (value : Value) : (s.respond status value).rqLen = s.rqLen := rfl
@[simp] theorem State.respond_rqData (status : Status) (value : Value) : (s.respond status value).rqData = s.rqData := rfl
@[simp] theorem State.respond_t0 (status : Status) (value : Value) : (s.respond status value).t0 = s.t0 := rfl
@[simp] theorem State.respond_outStatus (status : Status) (value : Value) : (s.respond status value).outStatus = s.outStatus := rfl
@[simp] theorem State.respond_outValue (status : Status) (value : Value) : (s.respond status value).outValue = s.outValue := rfl
@[simp] theorem State.respond_ftab (status : Status) (value : Value) : (s.respond status value).ftab = s.ftab := rfl
@[simp] theorem State.respond_rxq (status : Status) (value : Value) : (s.respond status value).rxq = s.rxq := rfl
@[simp] theorem State.respond_env (status : Status) (value : Value) : (s.respond status value).env = s.env := rfl
@[simp] theorem State.respond_draws (status : Status) (value : Value) : (s.respond status value).draws = s.draws := rfl
@[simp] theorem State.respond_outs (status : Status) (value : Value) : (s.respond status value).outs = s.outs ++ [.respond status value] := rfl

/-! ## `State.raise` -/

@[simp] theorem State.raise_st (status : Status) : (s.raise status).st = s.st := rfl
@[simp] theorem State.raise_inited (status : Status) : (s.raise status).inited = s.inited := rfl
@[simp] theorem State.raise_nodeId (status : Status) : (s.raise status).nodeId = s.nodeId := rfl
@[simp] theorem State.raise_timeout (status : Status) : (s.raise status).timeout = s.timeout := rfl
@[simp] theorem State.raise_cfgBitrate (status : Status) : (s.raise status).cfgBitrate = s.cfgBitrate := rfl
@[simp] theorem State.raise_cfgDebug (status : Status) : (s.raise status).cfgDebug = s.cfgDebug := rfl
@[simp] theorem State.raise_rqHdr (status : Status) : (s.raise status).rqHdr = s.rqHdr := rfl
@[simp] theorem State.raise_rqFilt (status : Status) : (s.raise status).rqFilt = s.rqFilt := rfl
@[simp] theorem State.raise_rqMode (status : Status) : (s.raise status).rqMode = s.rqMode := rfl
@[simp] theorem State.raise_rqKind (status : Status) : (s.raise status).rqKind = s.rqKind := rfl
@[simp] theorem State.raise_rqLen (status : Status) : (s.raise status).rqLen = s.rqLen := rfl
@[simp] theorem State.raise_rqData (status : Status) : (s.raise status).rqData = s.rqData := rfl
@[simp] theorem State.raise_t0 (status : Status) : (s.raise status).t0 = s.t0 := rfl
@[simp] theorem State.raise_outStatus (status : Status) : (s.raise status).outStatus = s.outStatus := rfl
@[simp] theorem State.raise_outValue (status : Status) : (s.raise status).outValue = s.outValue := rfl
@[simp] theorem State.raise_ftab (status : Status) : (s.raise status).ftab = s.ftab := rfl
@[simp] theorem State.raise_rxq (status : Status) : (s.raise status).rxq = s.rxq := rfl
@[simp] theorem State.raise_env (status : Status) : (s.raise status).env = s.env := rfl
@[simp] theorem State.raise_draws (status : Status) : (s.raise status).draws = s.draws := rfl
@[simp] theorem State.raise_outs (status : Status) : (s.raise status).outs = s.outs ++ [.respond status SENTINEL] := rfl

/-! ## `State.goto` -/

@[simp] theorem State.goto_st (ph : Phase) : (s.goto ph).st = ph := rfl
@[simp] theorem State.goto_inited (ph : Phase) : (s.goto ph).inited = s.inited := rfl
@[simp] theorem State.goto_nodeId (ph : Phase) : (s.goto ph).nodeId = s.nodeId := rfl
@[simp] theorem State.goto_timeout (ph : Phase) : (s.goto ph).timeout = s.timeout := rfl
@[simp] theorem State.goto_cfgBitrate (ph : Phase) : (s.goto ph).cfgBitrate = s.cfgBitrate := rfl
@[simp] theorem State.goto_cfgDebug (ph : Phase) : (s.goto ph).cfgDebug = s.cfgDebug := rfl
@[simp] theorem State.goto_rqHdr (ph : Phase) : (s.goto ph).rqHdr = s.rqHdr := rfl
@[simp] theorem State.goto_rqFilt (ph : Phase) : (s.goto ph).rqFilt = s.rqFilt := rfl
@[simp] theorem State.goto_rqMode (ph : Phase) : (s.goto ph).rqMode = s.rqMode := rfl
@[simp] theorem State.goto_rqKind (ph : Phase) : (s.goto ph).rqKind = s.rqKind := rfl
@[simp] theorem State.goto_rqLen (ph : Phase) : (s.goto ph).rqLen = s.rqLen := rfl
@[simp] theorem State.goto_rqData (ph : Phase) : (s.goto ph).rqData = s.rqData := rfl
@[simp] theorem State.goto_t0 (ph : Phase) : (s.goto ph).t0 = s.t0 := rfl
@[simp] theorem State.goto_outStatus (ph : Phase) : (s.goto ph).outStatus = s.outStatus := rfl
@[simp] theorem State.goto_outValue (ph : Phase) : (s.goto ph).outValue = s.outValue := rfl
@[simp] theorem State.goto_ftab (ph : Phase) : (s.goto ph).ftab = s.ftab := rfl
@[simp] theorem State.goto_rxq (ph : Phase) : (s.goto ph).rxq = s.rxq := rfl
@[simp] theorem State.goto_env (ph : Phase) : (s.goto ph).env = s.env := rfl
@[simp] theorem State.goto_draws (ph : Phase) : (s.goto ph).draws = s.draws := rfl
@[simp] theorem State.goto_outs (ph : Phase) : (s.goto ph).outs = s.outs := rfl

/-! ## `State.prepare` -/

@[simp] theorem State.prepare_st (status : Status) (value : Value) : (s.prepare status value).st = s.st := rfl
@[simp] theorem State.prepare_inited (status : Status) (value : Value) : (s.prepare status value).inited = s.inited := rfl
@[simp] theorem State.prepare_nodeId (status : Status) (value : Value) : (s.prepare status value).nodeId = s.nodeId := rfl
@[simp] theorem State.prepare_timeout (status : Status) (value : Value) : (s.prepare status value).timeout = s.timeout := rfl
@[simp] theorem State.prepare_cfgBitrate (status : Status) (value : Value) : (s.prepare status value).cfgBitrate = s.cfgBitrate := rfl
@[simp] theorem State.prepare_cfgDebug (status : Status) (value : Value) : (s.prepare status value).cfgDebug = s.cfgDebug := rfl
@[simp] theorem State.prepare_rqHdr (status : Status) (value : Value) : (s.prepare status value).rqHdr = s.rqHdr := rfl
@[simp] theorem State.prepare_rqFilt (status : Status) (value : Value) : (s.prepare status value).rqFilt = s.rqFilt := rfl
@[simp] theorem State.prepare_rqMode (status : Status) (value : Value) : (s.prepare status value).rqMode = s.rqMode := rfl
@[simp] theorem State.prepare_rqKind (status : Status) (value : Value) : (s.prepare status value).rqKind = s.rqKind := rfl
@[simp] theorem State.prepare_rqLen (status : Status) (value : Value) : (s.prepare status value).rqLen = s.rqLen := rfl
@[simp] theorem State.prepare_rqData (status : Status) (value : Value) : (s.prepare status value).rqData = s.rqData := rfl
@[simp] theorem State.prepare_t0 (status : Status) (value : Value) : (s.prepare status value).t0 = s.t0 := rfl
@[simp] theorem State.prepare_outStatus (status : Status) (value : Value) : (s.prepare status value).outStatus = status := rfl
@[simp] theorem State.prepare_outValue (status : Status) (value : Value) : (s.prepare status value).outValue = value := rfl
@[simp] theorem State.prepare_ftab (status : Status) (value : Value) : (s.prepare status value).ftab = s.ftab := rfl
@[simp] theorem State.prepare_rxq (status : Status) (value : Value) : (s.prepare status value).rxq = s.rxq := rfl
@[simp] theorem State.prepare_env (status : Status) (value : Value) : (s.prepare status value).env = s.env := rfl
@[simp] theorem State.prepare_draws (status : Status) (value : Value) : (s.prepare status value).draws = s.draws := rfl
@[simp] theorem State.prepare_outs (status : Status) (value : Value) : (s.prepare status value).outs = s.outs := rfl

/-! ## `State.prepareFailure` -/

@[simp] theorem State.prepareFailure_st (status : Status) : (s.prepareFailure status).st = s.st := rfl
@[simp] theorem State.prepareFailure_inited (status : Status) : (s.prepareFailure status).inited = s.inited := rfl
@[simp] theorem State.prepareFailure_nodeId (status : Status) : (s.prepareFailure status).nodeId = s.nodeId := rfl
@[simp] theorem State.prepareFailure_timeout (status : Status) : (s.prepareFailure status).timeout = s.timeout := rfl
@[simp] theorem State.prepareFailure_cfgBitrate (status : Status) : (s.prepareFailure status).cfgBitrate = s.cfgBitrate := rfl
@[simp] theorem State.prepareFailure_cfgDebug (status : Status) : (s.prepareFailure status).cfgDebug = s.cfgDebug := rfl
@[simp] theorem State.prepareFailure_rqHdr (status : Status) : (s.prepareFailure status).rqHdr = s.rqHdr := rfl
@[simp] theorem State.prepareFailure_rqFilt (status : Status) : (s.prepareFailure status).rqFilt = s.rqFilt := rfl
@[simp] theorem State.prepareFailure_rqMode (status : Status) : (s.prepareFailure status).rqMode = s.rqMode := rfl
@[simp] theorem State.prepareFailure_rqKind (status : Status) : (s.prepareFailure status).rqKind = s.rqKind := rfl
@[simp] theorem State.prepareFailure_rqLen (status : Status) : (s.prepareFailure status).rqLen = s.rqLen := rfl
@[simp] theorem State.prepareFailure_rqData (status : Status) : (s.prepareFailure status).rqData = s.rqData := rfl
@[simp] theorem State.prepareFailure_t0 (status : Status) : (s.prepareFailure status).t0 = s.t0 := rfl
@[simp] theorem State.prepareFailure_outStatus (status : Status) : (s.prepareFailure status).outStatus = status := rfl
@[simp] theorem State.prepareFailure_outValue (status : Status) : (s.prepareFailure status).outValue = SENTINEL := rfl
@[simp] theorem State.prepareFailure_ftab (status : Status) : (s.prepareFailure status).ftab = s.ftab := rfl
@[simp] theorem State.prepareFailure_rxq (status : Status) : (s.prepareFailure status).rxq = s.rxq := rfl
@[simp] theorem State.prepareFailure_env (status : Status) : (s.prepareFailure status).env = s.env := rfl
@[simp] theorem State.prepareFailure_draws (status : Status) : (s.prepareFailure status).draws = s.draws := rfl
@[simp] theorem State.prepareFailure_outs (status : Status) : (s.prepareFailure status).outs = s.outs := rfl

/-! ## `State.clearFilters` -/

@[simp] theorem State.clearFilters_st : (s.clearFilters).st = s.st := rfl
@[simp] theorem State.clearFilters_inited : (s.clearFilters).inited = s.inited := rfl
@[simp] theorem State.clearFilters_nodeId : (s.clearFilters).nodeId = s.nodeId := rfl
@[simp] theorem State.clearFilters_timeout : (s.clearFilters).timeout = s.timeout := rfl
@[simp] theorem State.clearFilters_cfgBitrate : (s.clearFilters).cfgBitrate = s.cfgBitrate := rfl
@[simp] theorem State.clearFilters_cfgDebug : (s.clearFilters).cfgDebug = s.cfgDebug := rfl
@[simp] theorem State.clearFilters_rqHdr : (s.clearFilters).rqHdr = s.rqHdr := rfl
@[simp] theorem State.clearFilters_rqFilt : (s.clearFilters).rqFilt = s.rqFilt := rfl
@[simp] theorem State.clearFilters_rqMode : (s.clearFilters).rqMode = s.rqMode := rfl
@[simp] theorem State.clearFilters_rqKind : (s.clearFilters).rqKind = s.rqKind := rfl
@[simp] theorem State.clearFilters_rqLen : (s.clearFilters).rqLen = s.rqLen := rfl
@[simp] theorem State.clearFilters_rqData : (s.clearFilters).rqData = s.rqData := rfl
@[simp] theorem State.clearFilters_t0 : (s.clearFilters).t0 = s.t0 := rfl
@[simp] theorem State.clearFilters_outStatus : (s.clearFilters).outStatus = s.outStatus := rfl
@[simp] theorem State.clearFilters_outValue : (s.clearFilters).outValue = s.outValue := rfl
@[simp] theorem State.clearFilters_ftab : (s.clearFilters).ftab = [] := rfl
@[simp] theorem State.clearFilters_rxq : (s.clearFilters).rxq = s.rxq := rfl
@[simp] theorem State.clearFilters_env : (s.clearFilters).env = s.env := rfl
@[simp] theorem State.clearFilters_draws : (s.clearFilters).draws = s.draws := rfl
@[simp] theorem State.clearFilters_outs : (s.clearFilters).outs = s.outs := rfl

/-! ## `State.configure` -/

@[simp] theorem State.configure_st (debug : Bool) (node : CanId) (bitrate timeout : Word32) : (s.configure debug node bitrate timeout).st = s.st := rfl
@[simp] theorem State.configure_inited (debug : Bool) (node : CanId) (bitrate timeout : Word32) : (s.configure debug node bitrate timeout).inited = s.inited := rfl
@[simp] theorem State.configure_nodeId (debug : Bool) (node : CanId) (bitrate timeout : Word32) : (s.configure debug node bitrate timeout).nodeId = node := rfl
@[simp] theorem State.configure_timeout (debug : Bool) (node : CanId) (bitrate timeout : Word32) : (s.configure debug node bitrate timeout).timeout = timeout := rfl
@[simp] theorem State.configure_cfgBitrate (debug : Bool) (node : CanId) (bitrate timeout : Word32) : (s.configure debug node bitrate timeout).cfgBitrate = bitrate := rfl
@[simp] theorem State.configure_cfgDebug (debug : Bool) (node : CanId) (bitrate timeout : Word32) : (s.configure debug node bitrate timeout).cfgDebug = debug := rfl
@[simp] theorem State.configure_rqHdr (debug : Bool) (node : CanId) (bitrate timeout : Word32) : (s.configure debug node bitrate timeout).rqHdr = s.rqHdr := rfl
@[simp] theorem State.configure_rqFilt (debug : Bool) (node : CanId) (bitrate timeout : Word32) : (s.configure debug node bitrate timeout).rqFilt = s.rqFilt := rfl
@[simp] theorem State.configure_rqMode (debug : Bool) (node : CanId) (bitrate timeout : Word32) : (s.configure debug node bitrate timeout).rqMode = s.rqMode := rfl
@[simp] theorem State.configure_rqKind (debug : Bool) (node : CanId) (bitrate timeout : Word32) : (s.configure debug node bitrate timeout).rqKind = s.rqKind := rfl
@[simp] theorem State.configure_rqLen (debug : Bool) (node : CanId) (bitrate timeout : Word32) : (s.configure debug node bitrate timeout).rqLen = s.rqLen := rfl
@[simp] theorem State.configure_rqData (debug : Bool) (node : CanId) (bitrate timeout : Word32) : (s.configure debug node bitrate timeout).rqData = s.rqData := rfl
@[simp] theorem State.configure_t0 (debug : Bool) (node : CanId) (bitrate timeout : Word32) : (s.configure debug node bitrate timeout).t0 = s.t0 := rfl
@[simp] theorem State.configure_outStatus (debug : Bool) (node : CanId) (bitrate timeout : Word32) : (s.configure debug node bitrate timeout).outStatus = s.outStatus := rfl
@[simp] theorem State.configure_outValue (debug : Bool) (node : CanId) (bitrate timeout : Word32) : (s.configure debug node bitrate timeout).outValue = s.outValue := rfl
@[simp] theorem State.configure_ftab (debug : Bool) (node : CanId) (bitrate timeout : Word32) : (s.configure debug node bitrate timeout).ftab = s.ftab := rfl
@[simp] theorem State.configure_rxq (debug : Bool) (node : CanId) (bitrate timeout : Word32) : (s.configure debug node bitrate timeout).rxq = s.rxq := rfl
@[simp] theorem State.configure_env (debug : Bool) (node : CanId) (bitrate timeout : Word32) : (s.configure debug node bitrate timeout).env = s.env := rfl
@[simp] theorem State.configure_draws (debug : Bool) (node : CanId) (bitrate timeout : Word32) : (s.configure debug node bitrate timeout).draws = s.draws := rfl
@[simp] theorem State.configure_outs (debug : Bool) (node : CanId) (bitrate timeout : Word32) : (s.configure debug node bitrate timeout).outs = s.outs := rfl

/-! ## `State.latch` -/

@[simp] theorem State.latch_st (mode : Mode) (kind : Kind) (len : BitVec 8) (hdr filt : CanId) (payload : Value) : (s.latch mode kind len hdr filt payload).st = s.st := rfl
@[simp] theorem State.latch_inited (mode : Mode) (kind : Kind) (len : BitVec 8) (hdr filt : CanId) (payload : Value) : (s.latch mode kind len hdr filt payload).inited = s.inited := rfl
@[simp] theorem State.latch_nodeId (mode : Mode) (kind : Kind) (len : BitVec 8) (hdr filt : CanId) (payload : Value) : (s.latch mode kind len hdr filt payload).nodeId = s.nodeId := rfl
@[simp] theorem State.latch_timeout (mode : Mode) (kind : Kind) (len : BitVec 8) (hdr filt : CanId) (payload : Value) : (s.latch mode kind len hdr filt payload).timeout = s.timeout := rfl
@[simp] theorem State.latch_cfgBitrate (mode : Mode) (kind : Kind) (len : BitVec 8) (hdr filt : CanId) (payload : Value) : (s.latch mode kind len hdr filt payload).cfgBitrate = s.cfgBitrate := rfl
@[simp] theorem State.latch_cfgDebug (mode : Mode) (kind : Kind) (len : BitVec 8) (hdr filt : CanId) (payload : Value) : (s.latch mode kind len hdr filt payload).cfgDebug = s.cfgDebug := rfl
@[simp] theorem State.latch_rqHdr (mode : Mode) (kind : Kind) (len : BitVec 8) (hdr filt : CanId) (payload : Value) : (s.latch mode kind len hdr filt payload).rqHdr = hdr := rfl
@[simp] theorem State.latch_rqFilt (mode : Mode) (kind : Kind) (len : BitVec 8) (hdr filt : CanId) (payload : Value) : (s.latch mode kind len hdr filt payload).rqFilt = filt := rfl
@[simp] theorem State.latch_rqMode (mode : Mode) (kind : Kind) (len : BitVec 8) (hdr filt : CanId) (payload : Value) : (s.latch mode kind len hdr filt payload).rqMode = mode := rfl
@[simp] theorem State.latch_rqKind (mode : Mode) (kind : Kind) (len : BitVec 8) (hdr filt : CanId) (payload : Value) : (s.latch mode kind len hdr filt payload).rqKind = kind := rfl
@[simp] theorem State.latch_rqLen (mode : Mode) (kind : Kind) (len : BitVec 8) (hdr filt : CanId) (payload : Value) : (s.latch mode kind len hdr filt payload).rqLen = len.extractLsb' 0 4 := rfl
@[simp] theorem State.latch_rqData (mode : Mode) (kind : Kind) (len : BitVec 8) (hdr filt : CanId) (payload : Value) : (s.latch mode kind len hdr filt payload).rqData = payload := rfl
@[simp] theorem State.latch_t0 (mode : Mode) (kind : Kind) (len : BitVec 8) (hdr filt : CanId) (payload : Value) : (s.latch mode kind len hdr filt payload).t0 = s.t0 := rfl
@[simp] theorem State.latch_outStatus (mode : Mode) (kind : Kind) (len : BitVec 8) (hdr filt : CanId) (payload : Value) : (s.latch mode kind len hdr filt payload).outStatus = s.outStatus := rfl
@[simp] theorem State.latch_outValue (mode : Mode) (kind : Kind) (len : BitVec 8) (hdr filt : CanId) (payload : Value) : (s.latch mode kind len hdr filt payload).outValue = s.outValue := rfl
@[simp] theorem State.latch_ftab (mode : Mode) (kind : Kind) (len : BitVec 8) (hdr filt : CanId) (payload : Value) : (s.latch mode kind len hdr filt payload).ftab = s.ftab := rfl
@[simp] theorem State.latch_rxq (mode : Mode) (kind : Kind) (len : BitVec 8) (hdr filt : CanId) (payload : Value) : (s.latch mode kind len hdr filt payload).rxq = s.rxq := rfl
@[simp] theorem State.latch_env (mode : Mode) (kind : Kind) (len : BitVec 8) (hdr filt : CanId) (payload : Value) : (s.latch mode kind len hdr filt payload).env = s.env := rfl
@[simp] theorem State.latch_draws (mode : Mode) (kind : Kind) (len : BitVec 8) (hdr filt : CanId) (payload : Value) : (s.latch mode kind len hdr filt payload).draws = s.draws := rfl
@[simp] theorem State.latch_outs (mode : Mode) (kind : Kind) (len : BitVec 8) (hdr filt : CanId) (payload : Value) : (s.latch mode kind len hdr filt payload).outs = s.outs := rfl

end Sys2Proof.Machine
end

