-- ==== Sys2Proof/Laws/Ops.lean ====
section
/-! SUPPORT. What each shared operation can do, said once. -/

namespace Sys2Proof.Machine

/-! ## Acceptance -/

theorem whenIdle_idle {s : State} (r : Result) (h : s.st = .idle) : whenIdle s r = r := if_pos h

theorem whenIdle_busy {s : State} (r : Result) (h : s.st ≠ .idle) : whenIdle s r = .next s := if_neg h

/-- `whenIdle` answers the accepted result in IDLE and the unchanged state outside it. -/
theorem whenIdle_cases {s t : State} {r : Result} (h : whenIdle s r = .next t) :
    (s.st = .idle ∧ r = .next t) ∨ (s.st ≠ .idle ∧ t = s) := by
  by_cases hs : s.st = .idle
  · exact .inl ⟨hs, whenIdle_idle r hs ▸ h⟩
  · rw [whenIdle_busy r hs] at h
    exact .inr ⟨hs, by cases h; rfl⟩

/-! ## The filter -/

theorem hasRoom_iff {α : Type} (l : List α) (cap : Nat) : hasRoom l cap = true ↔ l.length < cap := by
  induction l generalizing cap with
  | nil => cases cap <;> simp [hasRoom]
  | cons a l ih => cases cap <;> simp [hasRoom, ih]

@[simp] theorem hasRoom_nil_nfilt {α : Type} (p : Params) : hasRoom ([] : List α) p.nfilt = true := rfl

@[simp] theorem hasRoom_nil_rxqDepth {α : Type} (p : Params) : hasRoom ([] : List α) p.rxqDepth = true := rfl

/-- SETFILTER always succeeds, since the table has just been cleared (R173, R174). -/
theorem setFilter_eq (s : State) (p : Params) (id : CanId) :
    s.setFilter p id = some { s with ftab := [⟨id, MASK_EXACT⟩] } := rfl

theorem setFilterDefault_eq (s : State) (p : Params) :
    s.setFilterDefault p = some { s with ftab := [⟨s.nodeId, MASK_EXACT⟩] } := rfl

theorem accept_nil (x : CanId) : accept [] x = false := rfl

/-- The exact mask compares all eleven bits (R170). -/
theorem accept_exact (id x : CanId) : accept [⟨id, MASK_EXACT⟩] x = (x == id) := by
  have h : ∀ y : CanId, y &&& MASK_EXACT = y := fun y => BitVec.and_allOnes (w := 11)
  simp [accept, FilterEntry.accepts, h]

/-! ## The receive queue -/

/-- Everything an arrival can do (R178, R179, R196). -/
theorem arrive_cases {s t : State} {p : Params} {f : Frame} (h : s.arrive p f = .next t) :
    f.len.toNat ≤ MAX_LEN ∧
      ((accept s.ftab f.id = true ∧ s.rxq.length < p.rxqDepth ∧ t = { s with rxq := s.rxq ++ [f] }) ∨
       (¬ (accept s.ftab f.id = true ∧ s.rxq.length < p.rxqDepth) ∧ t = s)) := by
  by_cases hl : f.len.toNat ≤ MAX_LEN
  · by_cases ha : accept s.ftab f.id = true ∧ s.rxq.length < p.rxqDepth
    · simp only [State.arrive, hl, ha.1, (hasRoom_iff _ _).2 ha.2, Bool.and_self, if_true] at h
      exact ⟨hl, .inl ⟨ha.1, ha.2, by cases h; rfl⟩⟩
    · have hc : ¬ (accept s.ftab f.id && hasRoom s.rxq p.rxqDepth) = true := by
        simpa [hasRoom_iff] using ha
      simp only [State.arrive, hl, hc, if_true] at h
      exact ⟨hl, .inr ⟨ha, by cases h; rfl⟩⟩
  · simp [State.arrive, hl] at h

theorem pop_nil {s : State} (h : s.rxq = []) : s.pop = none := by simp [State.pop, h]

theorem pop_cons {s : State} {f : Frame} {q : List Frame} (h : s.rxq = f :: q) :
    s.pop = some (f, { s with rxq := q }) := by simp [State.pop, h]

/-! ## Events -/

theorem takeEvent_cons {s : State} {e : Event} {rest : List Event} (h : s.env = e :: rest) :
    s.takeEvent = (e, { s with env := rest, outs := [] }) := by simp [State.takeEvent, h]

theorem takeEvent_nil {s : State} (h : s.env = []) :
    s.takeEvent = (freeEvent s.draws, { s with draws := s.draws + 1, outs := [] }) := by simp [State.takeEvent, h]

/-- Taking an event changes only the list, the count of draws and the output ports. -/
theorem takeEvent_frame (s : State) :
    s.takeEvent.2 = { s with env := s.takeEvent.2.env, draws := s.takeEvent.2.draws, outs := [] } := by
  cases h : s.env with
  | nil => rw [takeEvent_nil h]
  | cons e rest => rw [takeEvent_cons h]

/-! The state an event finds is the state before it, field by field, with no output port driven. -/

@[simp] theorem takeEvent_snd_st (s : State) : s.takeEvent.2.st = s.st := by
  rw [State.takeEvent]; cases s.env <;> rfl

@[simp] theorem takeEvent_snd_inited (s : State) : s.takeEvent.2.inited = s.inited := by
  rw [State.takeEvent]; cases s.env <;> rfl

@[simp] theorem takeEvent_snd_nodeId (s : State) : s.takeEvent.2.nodeId = s.nodeId := by
  rw [State.takeEvent]; cases s.env <;> rfl

@[simp] theorem takeEvent_snd_timeout (s : State) : s.takeEvent.2.timeout = s.timeout := by
  rw [State.takeEvent]; cases s.env <;> rfl

@[simp] theorem takeEvent_snd_cfgBitrate (s : State) : s.takeEvent.2.cfgBitrate = s.cfgBitrate := by
  rw [State.takeEvent]; cases s.env <;> rfl

@[simp] theorem takeEvent_snd_cfgDebug (s : State) : s.takeEvent.2.cfgDebug = s.cfgDebug := by
  rw [State.takeEvent]; cases s.env <;> rfl

@[simp] theorem takeEvent_snd_rqHdr (s : State) : s.takeEvent.2.rqHdr = s.rqHdr := by
  rw [State.takeEvent]; cases s.env <;> rfl

@[simp] theorem takeEvent_snd_rqFilt (s : State) : s.takeEvent.2.rqFilt = s.rqFilt := by
  rw [State.takeEvent]; cases s.env <;> rfl

@[simp] theorem takeEvent_snd_rqMode (s : State) : s.takeEvent.2.rqMode = s.rqMode := by
  rw [State.takeEvent]; cases s.env <;> rfl

@[simp] theorem takeEvent_snd_rqKind (s : State) : s.takeEvent.2.rqKind = s.rqKind := by
  rw [State.takeEvent]; cases s.env <;> rfl

@[simp] theorem takeEvent_snd_rqLen (s : State) : s.takeEvent.2.rqLen = s.rqLen := by
  rw [State.takeEvent]; cases s.env <;> rfl

@[simp] theorem takeEvent_snd_rqData (s : State) : s.takeEvent.2.rqData = s.rqData := by
  rw [State.takeEvent]; cases s.env <;> rfl

@[simp] theorem takeEvent_snd_t0 (s : State) : s.takeEvent.2.t0 = s.t0 := by
  rw [State.takeEvent]; cases s.env <;> rfl

@[simp] theorem takeEvent_snd_outStatus (s : State) : s.takeEvent.2.outStatus = s.outStatus := by
  rw [State.takeEvent]; cases s.env <;> rfl

@[simp] theorem takeEvent_snd_outValue (s : State) : s.takeEvent.2.outValue = s.outValue := by
  rw [State.takeEvent]; cases s.env <;> rfl

@[simp] theorem takeEvent_snd_ftab (s : State) : s.takeEvent.2.ftab = s.ftab := by
  rw [State.takeEvent]; cases s.env <;> rfl

@[simp] theorem takeEvent_snd_rxq (s : State) : s.takeEvent.2.rxq = s.rxq := by
  rw [State.takeEvent]; cases s.env <;> rfl

@[simp] theorem takeEvent_snd_outs (s : State) : s.takeEvent.2.outs = [] := by
  rw [State.takeEvent]; cases s.env <;> rfl

/-! ## Time -/

/-- The deadline test as an order of 32-bit words (R129). -/
theorem deadlinePassed_iff (now t0 timeout : Word32) : deadlinePassed now t0 timeout = true ↔ timeout ≤ now - t0 := by
  rw [deadlinePassed, decide_eq_true_iff]
  exact BitVec.le_def.symm

/-- Every sequence of port values is carried by some clock whose true count never decreases, so R195 leaves the port free. -/
theorem exists_monotone_counts (start : Nat) (samples : List Word32) :
    ∃ counts : List Nat, List.IsChain (· ≤ ·) (start :: counts) ∧ counts.map (BitVec.ofNat 32) = samples := by
  induction samples generalizing start with
  | nil => exact ⟨[], by simp, rfl⟩
  | cons x xs ih =>
    obtain ⟨counts, hc, hm⟩ := ih (2 ^ 32 * start + x.toNat)
    refine ⟨(2 ^ 32 * start + x.toNat) :: counts, List.IsChain.cons_cons (by omega) hc, ?_⟩
    rw [List.map_cons, hm]
    congr 1
    apply BitVec.eq_of_toNat_eq
    rw [BitVec.toNat_ofNat, Nat.mul_add_mod, Nat.mod_eq_of_lt x.isLt]

/-! ## Bytes -/

theorem byteAt_copyBytes (src dst : Bytes) (n i : Nat) (hi : i < 8) :
    byteAt (copyBytes src n dst) i = if i < n then byteAt src i else byteAt dst i := by
  induction n with
  | zero => simp [copyBytes]
  | succ n ih =>
    by_cases h : n = i
    · subst h; simp [copyBytes, byteAt, hi]
    · have hlt : (i < n + 1) ↔ i < n := by omega
      simp only [hlt, ← ih]
      simp [copyBytes, byteAt, h]

/-- Byte `i` of the zero-filled buffer (R54, R161). -/
theorem byteAt_firstBytes (b : Bytes) (n i : Nat) (hi : i < 8) :
    byteAt (firstBytes b n) i = if i < n then byteAt b i else 0#8 := by
  rw [firstBytes, byteAt_copyBytes _ _ _ _ hi]
  have : byteAt zeroBytes i = 0#8 := by simp [byteAt, zeroBytes, hi]
  simp [this]

theorem decodeBytes_of_le {b : Bytes} {n : Nat} (h : n ≤ MAX_LEN) :
    decodeBytes b n = some (BitVec.ofNat 64 (memRead (firstBytes b n) 0 8)) := if_pos h

theorem decodeBytes_of_gt {b : Bytes} {n : Nat} (h : MAX_LEN < n) : decodeBytes b n = none := if_neg (by omega)

end Sys2Proof.Machine
end

