-- ==== Sys2Proof/Laws/PerInstr.lean ====
section
/-! SUPPORT. One family of statements per instruction: its encoded word selects its own row of the opcode map (R83). -/

namespace Sys2Proof

/-- The row of an instruction in the opcode map (R83). -/
def Instr.row : Instr → Row
  | .init _ _ _ _ => rowInit
  | .poll _ _ _ _ _ _ => rowPoll
  | .pollh _ _ _ _ _ => rowPollh
  | .setTimeout _ => rowSetTimeout
  | .decode _ _ => rowDecode

/-- A word and a mask meet field by field: the fields of R81 and the reserved fields between them. -/
theorem assemble_and (op : BitVec 4) (f1 f0 : Bool) (len : BitVec 8) (ida idb : CanId) (data : Value)
    (a : BitVec 4) (b c : BitVec 1) (d : BitVec 2) (e : BitVec 8) (f : BitVec 5) (g : BitVec 11) (h : BitVec 5)
    (i : BitVec 11) (j : BitVec 16) (k : BitVec 64) :
    assemble op f1 f0 len ida idb data &&& (a ++ b ++ c ++ d ++ e ++ f ++ g ++ h ++ i ++ j ++ k : BitVec 128) =
      (op &&& a) ++ (BitVec.ofBool f1 &&& b) ++ (BitVec.ofBool f0 &&& c) ++ 0#2 ++ (len &&& e) ++ 0#5 ++ (ida &&& g) ++
        0#5 ++ (idb &&& i) ++ 0#16 ++ (data &&& k) := by
  have key : (op ++ BitVec.ofBool f1 ++ BitVec.ofBool f0 ++ 0#2 ++ len ++ 0#5 ++ ida ++ 0#5 ++ idb ++ 0#16 ++ data) &&&
      (a ++ b ++ c ++ d ++ e ++ f ++ g ++ h ++ i ++ j ++ k) =
      (op &&& a) ++ (BitVec.ofBool f1 &&& b) ++ (BitVec.ofBool f0 &&& c) ++ 0#2 ++ (len &&& e) ++ 0#5 ++ (ida &&& g) ++
        0#5 ++ (idb &&& i) ++ 0#16 ++ (data &&& k) := by
    simp only [BitVec.and_append, BitVec.zero_and]
  exact key

/-! The masks of R83, field by field: a field a format reads is 0 in its mask. -/

theorem rowInit_mask : rowInit.mask = 0xF#4 ++ 0#1 ++ 1#1 ++ 3#2 ++ 0xFF#8 ++ 0x1F#5 ++ 0#11 ++ 0x1F#5 ++ 0x7FF#11 ++
    0xFFFF#16 ++ 0#64 := by decide

theorem rowPoll_mask : rowPoll.mask = 0xF#4 ++ 0#1 ++ 0#1 ++ 3#2 ++ 0#8 ++ 0x1F#5 ++ 0#11 ++ 0x1F#5 ++ 0#11 ++
    0xFFFF#16 ++ 0#64 := by decide

theorem rowPollh_mask : rowPollh.mask = 0xF#4 ++ 0#1 ++ 0#1 ++ 3#2 ++ 0#8 ++ 0x1F#5 ++ 0#11 ++ 0x1F#5 ++ 0x7FF#11 ++
    0xFFFF#16 ++ 0#64 := by decide

theorem rowSetTimeout_mask : rowSetTimeout.mask = 0xF#4 ++ 1#1 ++ 1#1 ++ 3#2 ++ 0xFF#8 ++ 0x1F#5 ++ 0x7FF#11 ++ 0x1F#5 ++
    0x7FF#11 ++ 0xFFFF#16 ++ 0xFFFFFFFF_00000000#64 := by decide

theorem rowDecode_mask : rowDecode.mask = 0xF#4 ++ 1#1 ++ 1#1 ++ 3#2 ++ 0#8 ++ 0x1F#5 ++ 0x7FF#11 ++ 0x1F#5 ++
    0x7FF#11 ++ 0xFFFF#16 ++ 0#64 := by decide

namespace Laws.RowFits

/-- The encoded word selects the instruction's own row. -/
def Statement (i : Instr) : Prop := i.row.selects (encode i) = true

theorem init (debug : Bool) (node : CanId) (bitrate timeout : Word32) : Statement (.init debug node bitrate timeout) := by
  simp only [Statement, Instr.row, Row.selects, rowInit_mask, encode, assemble_and, beq_iff_eq]
  simp
  decide

theorem poll (mode : Mode) (kind : Kind) (len : BitVec 8) (hdr filt : CanId) (payload : Value) :
    Statement (.poll mode kind len hdr filt payload) := by
  simp only [Statement, Instr.row, Row.selects, rowPoll_mask, encode, assemble_and, beq_iff_eq]
  simp
  decide

theorem pollh (mode : Mode) (kind : Kind) (len : BitVec 8) (hdr : CanId) (payload : Value) :
    Statement (.pollh mode kind len hdr payload) := by
  simp only [Statement, Instr.row, Row.selects, rowPollh_mask, encode, assemble_and, beq_iff_eq]
  simp
  decide

theorem setTimeout (timeout : Word32) : Statement (.setTimeout timeout) := by
  have high : (0#32 ++ timeout : Value) &&& 0xFFFFFFFF_00000000#64 = 0#64 := by
    have key : (0#32 ++ timeout) &&& (0xFFFFFFFF#32 ++ 0#32) = 0#32 ++ 0#32 := by
      simp only [BitVec.and_append, BitVec.zero_and, BitVec.and_zero]
    exact key
  simp only [Statement, Instr.row, Row.selects, rowSetTimeout_mask, encode, assemble_and, high, beq_iff_eq]
  simp
  decide

theorem decode (len : BitVec 8) (operand : Value) : Statement (.decode len operand) := by
  simp only [Statement, Instr.row, Row.selects, rowDecode_mask, encode, assemble_and, beq_iff_eq]
  simp
  decide

end Laws.RowFits

end Sys2Proof
end

