-- ==== Sys2Proof/Laws/Step.lean ====
section
/-! SUPPORT. What a step can do, said once: the moves of the sequencer rule by rule (R138), the answers to a presented
word (R91), and the cases of one event (R8). -/

namespace Sys2Proof.Machine

variable {p : Params} {inp : Inputs} {s t u : State}

/-- The transitions out of a non-IDLE state, one constructor per rule of R138, with the whole next state. -/
inductive Move (p : Params) (inp : Inputs) (u : State) : State → Prop where
  /-- R112. -/
  | beginWaits : u.st = .begin → inp.beginDone = false → Move p inp u u
  /-- R113. -/
  | beginCompletes : u.st = .begin → inp.beginDone = true → inp.beginOk = true →
      Move p inp u { u with ftab := [⟨u.nodeId, MASK_EXACT⟩], inited := true, st := .idle,
                            outs := u.outs ++ [.respond .ok 0#64] }
  /-- R114. -/
  | beginFails : u.st = .begin → inp.beginDone = true → inp.beginOk = false →
      Move p inp u { u with st := .idle, outs := u.outs ++ [.respond .initFailed SENTINEL] }
  /-- R124. -/
  | query : u.st = .filterSet → u.rqMode = .queryResponse →
      Move p inp u { u with st := .transmit, outs := u.outs ++ [.tx u.queryFrame] }
  /-- R126. -/
  | noError : (u.st = .transmit ∨ (u.st = .filterSet ∧ u.rqMode = .passiveListen)) → inp.errStatus = 0#8 →
      Move p inp u { u with t0 := inp.now, st := .wait }
  /-- R127. -/
  | busError : (u.st = .transmit ∨ (u.st = .filterSet ∧ u.rqMode = .passiveListen)) → inp.errStatus ≠ 0#8 →
      Move p inp u { u with outStatus := .busError, outValue := SENTINEL, st := .errored,
                            outs := u.outs ++ [.tx (u.diagFrame p)] }
  /-- R128. -/
  | frame (f : Frame) (q : List Frame) (v : Value) : u.st = .wait → u.rxq = f :: q →
      decodeBytes f.data f.len.toNat = some v →
      Move p inp u { u with rxq := q, outStatus := .ok, outValue := v, st := .matched }
  /-- R129. -/
  | deadline : u.st = .wait → u.rxq = [] → deadlinePassed inp.now u.t0 u.timeout = true →
      Move p inp u { u with outStatus := .timedOut, outValue := SENTINEL, st := .timedOut }
  /-- R130. -/
  | keepWaiting : u.st = .wait → u.rxq = [] → deadlinePassed inp.now u.t0 u.timeout = false → Move p inp u u
  /-- R131, R132, R133. -/
  | restore : (u.st = .matched ∨ u.st = .timedOut ∨ u.st = .errored) →
      Move p inp u { u with ftab := [⟨u.nodeId, MASK_EXACT⟩], st := .filterRestored }
  /-- R134. -/
  | answer : u.st = .filterRestored →
      Move p inp u { u with st := .idle, outs := u.outs ++ [.respond u.outStatus u.outValue] }

theorem errorCheck_eq : errorCheck p inp u = .next (if inp.errStatus = 0#8 then { u with t0 := inp.now, st := .wait }
    else { u with outStatus := .busError, outValue := SENTINEL, st := .errored,
                  outs := u.outs ++ [.tx (u.diagFrame p)] }) := by
  by_cases h : inp.errStatus = 0#8 <;> simp [errorCheck, errorPresent, h] <;> rfl

/-- Every transition is one of the moves of R138. -/
theorem advance_move (hs : u.st ≠ .idle) (h : advance p inp u = .next t) : Move p inp u t := by
  have check (hc : u.st = .transmit ∨ (u.st = .filterSet ∧ u.rqMode = .passiveListen))
      (h : errorCheck p inp u = .next t) : Move p inp u t := by
    rw [errorCheck_eq] at h
    cases h
    by_cases he : inp.errStatus = 0#8
    · rw [if_pos he]; exact .noError hc he
    · rw [if_neg he]; exact .busError hc he
  have restore (hc : u.st = .matched ∨ u.st = .timedOut ∨ u.st = .errored) (h : stepRestore p u = .next t) :
      Move p inp u t := by cases h; exact .restore hc
  cases hst : u.st <;> simp only [advance, hst] at h
  case idle => exact absurd hst hs
  case begin =>
    cases hd : inp.beginDone <;> cases hok : inp.beginOk <;> simp only [stepBegin, hd, hok, if_true] at h <;> cases h
    · exact .beginWaits hst hd
    · exact .beginWaits hst hd
    · exact .beginFails hst hd hok
    · exact .beginCompletes hst hd hok
  case filterSet =>
    cases hm : u.rqMode <;> simp only [stepFilterSet, hm] at h
    · cases h; exact .query hst hm
    · exact check (.inr ⟨hst, hm⟩) h
  case transmit => exact check (.inl hst) h
  case wait =>
    cases hq : u.rxq with
    | nil =>
      cases hd : deadlinePassed inp.now u.t0 u.timeout <;> simp only [stepWait, pop_nil hq, hd, if_true] at h <;> cases h
      · exact .keepWaiting hst hq hd
      · exact .deadline hst hq hd
    | cons f q =>
      cases hv : decodeBytes f.data f.len.toNat <;> simp only [stepWait, pop_cons hq, hv] at h <;> cases h
      exact .frame f q _ hst hq hv
  case matched => exact restore (.inl hst) h
  case timedOut => exact restore (.inr (.inl hst)) h
  case errored => exact restore (.inr (.inr hst)) h
  case filterRestored => cases h; exact .answer hst

/-- What `exec` can answer in IDLE: a failure or a value with one response, or the first step of INIT or of a poll. -/
inductive Accepted (u : State) : Instr → State → Prop where
  /-- A command answered at once with nothing else done (R115, R121, R122, R160, R163). -/
  | answered (i : Instr) (status : Status) (value : Value) : (status ≠ .ok → value = SENTINEL) →
      Accepted u i { u with outs := u.outs ++ [.respond status value] }
  /-- R111. -/
  | construction (debug : Bool) (node : CanId) (bitrate timeout : Word32) : u.inited = false →
      Accepted u (.init debug node bitrate timeout)
        { u with nodeId := node, timeout := timeout, cfgBitrate := bitrate, cfgDebug := debug, st := .begin,
                 outs := u.outs ++ [.begin bitrate debug] }
  /-- R150. -/
  | timeout (timeout : Word32) : u.inited = true →
      Accepted u (.setTimeout timeout) { u with timeout := timeout, outs := u.outs ++ [.respond .ok 0#64] }
  /-- R123. -/
  | request (i : Instr) (mode : Mode) (kind : Kind) (len : BitVec 8) (hdr filt : CanId) (payload : Value) :
      u.inited = true → len.toNat ≤ MAX_LEN → (i = .poll mode kind len hdr filt payload ∨
        (i = .pollh mode kind len hdr payload ∧ filt = hdr)) →
      Accepted u i { u with rqHdr := hdr, rqFilt := filt, rqMode := mode, rqKind := kind, rqLen := len.extractLsb' 0 4,
                            rqData := payload, ftab := [⟨filt, MASK_EXACT⟩], st := .filterSet }

theorem acceptPoll_accepted {i : Instr} {mode : Mode} {kind : Kind} {len : BitVec 8} {hdr filt : CanId} {payload : Value}
    (hi : i = .poll mode kind len hdr filt payload ∨ (i = .pollh mode kind len hdr payload ∧ filt = hdr))
    (hs : u.st = .idle) (h : acceptPoll mode kind len hdr filt payload u = .next t) : Accepted u i t := by
  by_cases hn : u.inited = true <;> by_cases hl : len.toNat ≤ MAX_LEN <;>
    simp only [acceptPoll, whenIdle_idle _ hs, hn, hl, if_true, if_false, Bool.false_eq_true] at h <;> cases h
  · exact .request i mode kind len hdr filt payload hn hl hi
  · exact .answered i .payloadTooLong SENTINEL fun _ => rfl
  · exact .answered i .badState SENTINEL fun _ => rfl
  · exact .answered i .badState SENTINEL fun _ => rfl

/-- Every answer of `exec` in IDLE is one of `Accepted`. -/
theorem exec_accepted {i : Instr} (hs : u.st = .idle) (h : exec i u = .next t) : Accepted u i t := by
  cases i with
  | init debug node bitrate timeout =>
    cases hn : u.inited <;> simp only [exec, execInit, whenIdle_idle _ hs, hn, if_true] at h <;> cases h
    · exact .construction debug node bitrate timeout hn
    · exact .answered _ .badState SENTINEL fun _ => rfl
  | poll mode kind len hdr filt payload => exact acceptPoll_accepted (.inl rfl) hs h
  | pollh mode kind len hdr payload => exact acceptPoll_accepted (.inr ⟨rfl, rfl⟩) hs h
  | setTimeout timeout =>
    cases hn : u.inited <;> simp only [exec, execSetTimeout, whenIdle_idle _ hs, hn, if_true] at h <;> cases h
    · exact .answered _ .badState SENTINEL fun _ => rfl
    · have := Accepted.timeout timeout hn
      rwa [hn] at this
  | decode len operand =>
    cases hv : decodeBytes (bytes operand) len.toNat <;>
      simp only [exec, execDecode, whenIdle_idle _ hs, hv] at h <;> cases h
    · exact .answered _ .illegalCmd SENTINEL fun _ => rfl
    · exact .answered _ .ok _ fun hne => absurd rfl hne

theorem step_of_takeEvent {e : Event} (h : s.takeEvent = (e, u)) : step s = runEvent Config.params exec e u := by
  simp [step, h]

/-- Everything one step can do, by the event it takes and the state that event finds. -/
theorem step_cases (h : step s = .next t) :
    (s.takeEvent.1 = .reset ∧ t = s.takeEvent.2.resetBlock) ∨
    (∃ f, s.takeEvent.1 = .arrive f ∧ s.takeEvent.2.arrive Config.params f = .next t) ∨
    (∃ inp, s.takeEvent.1 = .step inp ∧
      ((s.st = .idle ∧ inp.cmd = none ∧ t = s.takeEvent.2) ∨
       (∃ w i, s.st = .idle ∧ inp.cmd = some w ∧ decode w = .ok i ∧ Accepted s.takeEvent.2 i t) ∨
       (∃ w e, s.st = .idle ∧ inp.cmd = some w ∧ decode w = .error e ∧
         t = s.takeEvent.2.raise .illegalCmd) ∨
       (s.st ≠ .idle ∧ Move Config.params inp s.takeEvent.2 t))) := by
  have hst : s.takeEvent.2.st = s.st := takeEvent_snd_st s
  cases he : s.takeEvent.1 with
  | reset =>
    simp only [step, he, runEvent] at h
    exact .inl ⟨rfl, by cases h; rfl⟩
  | arrive f =>
    simp only [step, he, runEvent] at h
    exact .inr (.inl ⟨f, rfl, h⟩)
  | step inp =>
    simp only [step, he, runEvent, sequencerStep, hst] at h
    refine .inr (.inr ⟨inp, rfl, ?_⟩)
    by_cases hi : s.st = .idle
    · cases hc : inp.cmd with
      | none =>
        simp only [hi, hc, if_true] at h
        exact .inl ⟨hi, rfl, by cases h; rfl⟩
      | some w =>
        simp only [hi, hc, if_true, acceptWord] at h
        cases hd : decode w with
        | ok i =>
          rw [hd] at h
          exact .inr (.inl ⟨w, i, hi, rfl, hd, exec_accepted (hst.trans hi) h⟩)
        | error e =>
          rw [hd] at h
          simp only [rejectWord, whenIdle_idle _ (hst.trans hi)] at h
          exact .inr (.inr (.inl ⟨w, e, hi, rfl, hd, by cases h; rfl⟩))
    · rw [if_neg hi] at h
      exact .inr (.inr (.inr ⟨hi, advance_move (by rwa [hst]) h⟩))

end Sys2Proof.Machine
end

