-- ==== Sys2Proof/Laws/Run.lean ====
section
/-! SUPPORT. Runs: how `steps` is cut into parts, and what one listed event does. -/

namespace Sys2Proof.Machine

/-- `steps` is the host's run of the machine. -/
theorem steps_eq_run (n : Nat) (s : State) : steps n s = Host.Core.run core n s := by
  induction n generalizing s with
  | zero => rfl
  | succ n ih =>
    have h : core.step s = step s := rfl
    simp only [steps, Host.Core.run, h]
    cases step s <;> first | exact ih _ | rfl

theorem steps_succ {n : Nat} {s t : State} (h : step s = .next t) : steps (n + 1) s = steps n t := by
  simp only [steps, h]

theorem steps_add {m n : Nat} {s t : State} (h : steps m s = .next t) : steps (m + n) s = steps n t := by
  induction m generalizing s with
  | zero => cases h; rw [Nat.zero_add]
  | succ m ih =>
    rw [Nat.succ_add]
    simp only [steps] at h ⊢
    cases hs : step s <;> rw [hs] at h
    · exact ih h
    · cases h
    · cases h

/-- A listed sequencer step outside IDLE is a transition of `st`. -/
theorem step_advance {s : State} {inp : Inputs} {rest : List Event} (h : s.env = .step inp :: rest)
    (hs : s.st ≠ .idle) : step s = advance Config.params inp (s.after rest) := by
  rw [step_of_takeEvent (takeEvent_cons h)]
  exact if_neg hs

/-- A listed sequencer step in IDLE runs the presented command. -/
theorem step_exec {s : State} {inp : Inputs} {rest : List Event} {w : CmdWord} {i : Instr}
    (h : s.env = .step inp :: rest) (hs : s.st = .idle) (hc : inp.cmd = some w) (hd : decode w = .ok i) :
    step s = exec i (s.after rest) := by
  rw [step_of_takeEvent (takeEvent_cons h)]
  refine (if_pos hs).trans ?_
  simp only [hc, acceptWord, hd]
  rfl

/-- A listed arrival. -/
theorem step_arrive {s : State} {f : Frame} {rest : List Event} (h : s.env = .arrive f :: rest) :
    step s = (s.after rest).arrive Config.params f := step_of_takeEvent (takeEvent_cons h)

end Sys2Proof.Machine
end

