-- ==== Sys2Proof/Tests/Slice0.lean ====
section
/-! SUPPORT. The model's own tests: small steps whose expected results come from spec/95_test_vectors.md or from the rules, and
for every statement with hypotheses a witness that meets them. -/

namespace Sys2Proof.Tests

open Sys2Proof.Machine

/-! ## Helpers -/

/-- Input ports with nothing driven. -/
def quiet : Inputs := { cmd := none, beginDone := false, beginOk := false, errStatus := 0#8, now := 0#32 }

/-- A step in which the clock shows `now`. -/
def clock (now : Word32) : Inputs := { quiet with now := now }

/-- A step in which the bus answers a `begin`. -/
def begun (ok : Bool) : Inputs := { quiet with beginDone := true, beginOk := ok }

/-- A step in which `err_status` is not `NO_ERROR`. -/
def failing : Inputs := { quiet with errStatus := 0x80#8 }

/-- The constructed block of 95_test_vectors.md Part 1: node 0x100, timeout 50, default filter, empty queue, IDLE. -/
def ready : State := { State.reset with inited := true, nodeId := 0x100#11, timeout := 50#32, ftab := [⟨0x100#11, 0x7FF#11⟩] }

/-- That block with the poll of S1 in progress in a given state: header and filter 0x200, payload 01 02, 2 bytes. -/
def polling (ph : Phase) (mode : Mode) : State :=
  { ready with st := ph, rqHdr := 0x200#11, rqFilt := 0x200#11, rqMode := mode, rqLen := 2#4, rqData := 0x0201#64,
               ftab := [⟨0x200#11, 0x7FF#11⟩] }

/-- The block after INIT has been accepted, waiting for the bus. -/
def constructing : State := { State.reset with st := .begin, nodeId := 0x100#11, timeout := 50#32, cfgBitrate := 500000#32 }

/-- The same state with these events still to come. -/
def facing (s : State) (es : List Event) : State := { s with env := es }

/-- The frame of S1: identifier 0x200, eight bytes 2A 00 … 00. -/
def frame42 : Frame := ⟨0x200#11, .data, 8#4, #v[0x2A#8, 0#8, 0#8, 0#8, 0#8, 0#8, 0#8, 0#8]⟩

/-- A one-byte frame to a given identifier. -/
def byteFrame (id : CanId) (b : Byte) : Frame := ⟨id, .data, 1#4, #v[b, 0#8, 0#8, 0#8, 0#8, 0#8, 0#8, 0#8]⟩

/-- Part of the next state, where there is one. -/
def seen {α : Type} (r : Result) (view : State → α) : Option α :=
  match r with
  | .next s => some (view s)
  | .fault _ => none
  | .refused _ => none

/-- Why a step was refused, where it was. -/
def refusal (r : Result) : Option Refusal :=
  match r with
  | .next _ => none
  | .fault _ => none
  | .refused q => some q

/-! ## Legal operands: the smoke test of `Instr.wf` (R87, R163) -/

theorem test_wf_refuses_decode_length_9 : (Instr.decode 9#8 0#64).wf = false := by decide
theorem test_wf_refuses_decode_length_255 : (Instr.decode 255#8 0#64).wf = false := by decide
theorem test_wf_accepts_decode_length_8 : (Instr.decode 8#8 0#64).wf = true := by decide
theorem test_wf_accepts_poll_length_255 :
    (Instr.poll .queryResponse .data 255#8 0#11 0#11 0#64).wf = true := by decide

/-! ## Decoding: words written out from the spec -/

/-- V-I row 3: node 0x7FF, rate 250000, timeout 0, debug 1. -/
theorem test_decode_init : decode 0x180007FF_00000000_0003D090_00000000#128 = .ok (.init true 0x7FF#11 250000#32 0#32) := by
  decide

/-- V-P row 5 with `KIND` set too: MODE and KIND are bits 123 and 122, FILT differs from HDR. -/
theorem test_decode_poll : decode 0x2C000200_02010000_00000000_00000000#128 =
    .ok (.poll .passiveListen .remote 0#8 0x200#11 0x201#11 0#64) := by decide

/-- V-P row 2. -/
theorem test_decode_pollh : decode 0x34040200_00000000_00000000_44332211#128 =
    .ok (.pollh .queryResponse .remote 4#8 0x200#11 0x44332211#64) := by decide

/-- S7. -/
theorem test_decode_setTimeout : decode 0x40000000_00000000_00000000_00000064#128 = .ok (.setTimeout 100#32) := by decide

/-- V-D row 3. -/
theorem test_decode_decode : decode 0x50040000_00000000_00000000_DEADBEEF#128 = .ok (.decode 4#8 0xDEADBEEF#64) := by decide

/-- V-E rows 1 to 3: reserved opcodes. -/
theorem test_decode_reserved_opcodes :
    decode 0x00000000_00000000_00000000_00000000#128 = .error (.reservedOpcode 0x0#4) ∧
    decode 0x60000000_00000000_00000000_00000000#128 = .error (.reservedOpcode 0x6#4) ∧
    decode 0xF0000000_00000000_00000000_00000000#128 = .error (.reservedOpcode 0xF#4) := by decide

/-- V-E row 4, and R86's POLLH, SET_TIMEOUT and DECODE cases: reserved bits. -/
theorem test_decode_reserved_bits :
    decode 0x21020200_02000000_00000000_00000201#128 = .error (.reservedBits 0x2#4) ∧
    decode 0x30020200_00010000_00000000_00000201#128 = .error (.reservedBits 0x3#4) ∧
    decode 0x40010000_00000000_00000000_00000064#128 = .error (.reservedBits 0x4#4) ∧
    decode 0x58000000_00000000_00000000_00000000#128 = .error (.reservedBits 0x5#4) ∧
    decode 0x54000000_00000000_00000000_00000000#128 = .error (.reservedBits 0x5#4) := by decide

/-- The words of S1 from their operands, by the layouts of R82. -/
theorem test_encode :
    encode (.poll .queryResponse .data 2#8 0x200#11 0x200#11 0x0201#64) = 0x20020200_02000000_00000000_00000201#128 ∧
    encode (.init false 0x100#11 500000#32 50#32) = 0x10000100_00000000_0007A120_00000032#128 := by decide

/-- The host's numbering: a word shorter than 128 bits is completed with zeros (R80). -/
theorem test_decodeTableWord : decodeTableWord 128 (5 * 2 ^ 124) = some (.decode 0#8 0#64) ∧ decodeTableWord 128 0 = none ∧
    decodeTableWord 120 (5 * 2 ^ 124) = none := by decide

/-! ## Single steps -/

/-- V-I row 1, first event. -/
theorem test_init_starts : seen (step (State.reset.withFetchWord 128 0x18000100000000000007A12000000032))
    (fun t => (t.st, t.outs, t.ftab)) = some (.begin, [.begin 500000#32 true], []) := by decide

/-- V-E row 9. -/
theorem test_init_again : seen (execInit false 0x101#11 1#32 1#32 ready) (fun t => (t.st, t.nodeId, t.outs)) =
    some (.idle, 0x100#11, [.respond .badState SENTINEL]) := by decide

/-- V-I row 1, last event. -/
theorem test_begin_fails : seen (step (facing constructing [.step (begun false)])) (fun t => (t.st, t.inited, t.ftab, t.outs)) =
    some (.idle, false, [], [.respond .initFailed SENTINEL]) := by decide

/-- V-I row 2, last event. -/
theorem test_begin_completes : seen (step (facing constructing [.step (begun true)])) (fun t => (t.inited, t.ftab, t.outs)) =
    some (true, [⟨0x100#11, 0x7FF#11⟩], [.respond .ok 0#64]) := by decide

/-- V-P row 5, acceptance. -/
theorem test_poll_installs_filter : seen (execPoll .passiveListen .data 0#8 0x200#11 0x201#11 0#64 ready)
    (fun t => (t.st, t.rqHdr, t.ftab, t.outs)) = some (.filterSet, 0x200#11, [⟨0x201#11, 0x7FF#11⟩], []) := by decide

/-- S4 with `len = 255`. -/
theorem test_poll_length_255 : seen (execPoll .queryResponse .data 255#8 0x7FF#11 0x7FF#11 0#64 ready)
    (fun t => (t.st, t.ftab, t.outs)) =
    some (.idle, [⟨0x100#11, 0x7FF#11⟩], [.respond .payloadTooLong SENTINEL]) := by decide

/-- S1 as POLLH (R136). -/
theorem test_pollh_filter_is_header : seen (execPollh .queryResponse .data 2#8 0x200#11 0x0201#64 ready)
    (fun t => (t.st, t.rqFilt, t.rqLen, t.ftab)) = some (.filterSet, 0x200#11, 2#4, [⟨0x200#11, 0x7FF#11⟩]) := by decide

/-- V-E row 8: the state check comes before the length check. -/
theorem test_pollh_bad_state_before_length : seen (execPollh .queryResponse .data 9#8 0x200#11 0#64 State.reset)
    (fun t => (t.st, t.outs)) = some (.idle, [.respond .badState SENTINEL]) := by decide

/-- S7. -/
theorem test_setTimeout : seen (execSetTimeout 100#32 ready) (fun t => (t.timeout, t.outs)) =
    some (100#32, [.respond .ok 0#64]) := by decide

/-- V-E row 7. -/
theorem test_setTimeout_bad_state : seen (execSetTimeout 100#32 State.reset) (fun t => (t.timeout, t.outs)) =
    some (0#32, [.respond .badState SENTINEL]) := by decide

/-- V-D row 5, straight after reset. -/
theorem test_decode_command : seen (execDecode 3#8 0x0807060504030201#64 State.reset) State.outs =
    some [.respond .ok 0x030201#64] := by decide

/-- V-D row 8. -/
theorem test_decode_length_9 : seen (execDecode 9#8 0#64 State.reset) State.outs =
    some [.respond .illegalCmd SENTINEL] := by decide

/-- V-P row 10: bytes beyond the length are not transmitted. -/
theorem test_query_port : seen (step (facing { polling .filterSet .queryResponse with rqData := 0x0807060504030201#64 }
    [.step quiet])) (fun t => (t.st, t.txPort)) = some (.transmit, some (0x200#11, false, 2#4, 0x0201#64)) := by decide

/-- V-P row 4: the clock wraps during the wait. -/
theorem test_clock_wrap : deadlinePassed 0x53#32 0xFFFFFFF0#32 100#32 = false ∧
    deadlinePassed 0x54#32 0xFFFFFFF0#32 100#32 = true := by decide

/-- R129's example: elapsed 50 against a timeout of 50. -/
theorem test_deadline : seen (step (facing { polling .wait .queryResponse with t0 := 1000#32 } [.step (clock 1050#32)])) State.st =
    some .timedOut ∧
    seen (step (facing { polling .wait .queryResponse with t0 := 1000#32 } [.step (clock 1049#32)])) State.st = some .wait := by
  decide

/-- V-P row 2: a frame beats an expired deadline, and the second stays queued. -/
theorem test_frame_beats_deadline : seen (step (facing { polling .wait .queryResponse with
      t0 := 10#32, rxq := [⟨0x200#11, .data, 8#4, Vector.replicate 8 0xFF#8⟩, byteFrame 0x200#11 1#8] } [.step (clock 9999#32)]))
    (fun t => (t.st, t.outStatus, t.outValue, t.rxq)) = some (.matched, .ok, SENTINEL, [byteFrame 0x200#11 1#8]) := by decide

/-- R127: the diagnostic frame goes to the node's identifier. -/
theorem test_bus_error : seen (step (facing (polling .filterSet .passiveListen) [.step failing]))
    (fun t => (t.st, t.outStatus, t.ftab, t.outs.length)) = some (.errored, .busError, [⟨0x200#11, 0x7FF#11⟩], 1) := by decide

/-- V-F rows 2, 3, 5, 7, 8. -/
theorem test_filter : accept [⟨0x200#11, 0x7FF#11⟩] 0x201#11 = false ∧ accept [⟨0x200#11, 0x7FF#11⟩] 0x600#11 = false ∧
    accept [⟨0x000#11, 0x7FF#11⟩] 0x001#11 = false ∧ accept [] 0x100#11 = false ∧
    accept [⟨0x200#11, 0x7F0#11⟩] 0x20F#11 = true ∧ accept [⟨0x200#11, 0x7F0#11⟩] 0x210#11 = false := by decide

/-- V-F, queue overflow with `RXQ_DEPTH` = 2: the third frame is dropped. -/
theorem test_queue_overflow : seen ({ ready with rxq := [byteFrame 0x100#11 1#8, byteFrame 0x100#11 2#8] }.arrive
      ⟨0, 1, .data, 0, Vector.replicate 8 0#8⟩ (byteFrame 0x100#11 3#8)) State.rxq =
    some [byteFrame 0x100#11 1#8, byteFrame 0x100#11 2#8] := by decide

/-- R196: a frame of 9 bytes is outside the contract. -/
theorem test_arrival_length_9 : refusal (step (facing ready [.arrive { frame42 with len := 9#4 }])) = some .arrivalLength := by
  decide

/-- R240: a reset in the middle of a poll. -/
theorem test_reset : seen (step (facing (polling .wait .queryResponse) [.reset])) (fun t => (t.st, t.inited, t.ftab, t.outs)) =
    some (.idle, false, [], []) := by decide

/-! ## Witnesses: concrete states and operands that meet the hypotheses of the statements -/

/-- POLLH of S1. -/
def wordPollh : CmdWord := 0x30020200_00000000_00000000_00000201#128

/-- POLL of S1. -/
def wordPoll : CmdWord := 0x20020200_02000000_00000000_00000201#128

/-- LISTEN of V-P row 1. -/
def wordListen : CmdWord := 0x38000300_00000000_00000000_00000000#128

/-- INIT of Part 1. -/
def wordInit : CmdWord := 0x10000100_00000000_0007A120_00000032#128

/-- SET_TIMEOUT of S7. -/
def wordTimeout : CmdWord := 0x40000000_00000000_00000000_00000064#128

theorem ready_inv : ready.Inv :=
  ⟨by decide, by decide, by decide, by decide, by decide, by decide, by decide, Nat.zero_le _, by decide, by decide,
   by decide, by decide⟩

/-- An unconstructed block, as a failed INIT leaves it. -/
def unready : State := { State.reset with nodeId := 0x100#11, timeout := 50#32 }

theorem unready_inv : unready.Inv :=
  ⟨by decide, by decide, by decide, by decide, by decide, by decide, by decide, Nat.zero_le _, by decide, by decide,
   by decide, by decide⟩

/-- What the outside does next has no part in the invariants. -/
theorem facing_inv {s : State} (h : s.Inv) (es : List Event) : (facing s es).Inv := by
  obtain ⟨h1, h2, h3, h4, h5, h6, h7, h8, h9, h10, h11, h12⟩ := h
  exact ⟨h1, h2, h3, h4, h5, h6, h7, h8, h9, h10, h11, h12⟩

theorem constructing_inv : constructing.Inv :=
  ⟨by decide, by decide, by decide, by decide, by decide, by decide, by decide, Nat.zero_le _, by decide, by decide,
   by decide, by decide⟩

/-- The states of a poll before its end meet the invariants. -/
theorem polling_inv (ph : Phase) (mode : Mode) (h : ph = .filterSet ∨ ph = .transmit ∨ ph = .wait) :
    (polling ph mode).Inv := by
  rcases h with rfl | rfl | rfl <;> cases mode <;>
    exact ⟨by decide, by decide, by decide, by decide, by decide, by decide, by decide, Nat.zero_le _, by decide, by decide,
      by decide, by decide⟩

/-- A poll that has timed out. -/
def timedOut : State := { polling .timedOut .queryResponse with outStatus := .timedOut, outValue := SENTINEL }

/-- A poll about to answer that it has timed out. -/
def restored : State := { timedOut with st := .filterRestored, ftab := [⟨0x100#11, 0x7FF#11⟩] }

theorem timedOut_inv : timedOut.Inv :=
  ⟨by decide, by decide, by decide, by decide, by decide, by decide, by decide, Nat.zero_le _, by decide, by decide,
   by decide, by decide⟩

theorem restored_inv : restored.Inv :=
  ⟨by decide, by decide, by decide, by decide, by decide, by decide, by decide, Nat.zero_le _, by decide, by decide,
   by decide, by decide⟩

theorem witness_EncodeOfDecode : decode wordPollh = .ok (.pollh .queryResponse .data 2#8 0x200#11 0x0201#64) := by decide

/-- Both sides of every clause, at the opcodes where they meet. -/
theorem witness_DecodeFollowsOpcodeMap :
    rowDecode.selects 0x50080000_00000000_00000000_0000002A#128 = true ∧ fieldOp 0#128 = 0#4 ∧
    5 < (fieldOp 0x60000000_00000000_00000000_00000000#128).toNat ∧
    (fieldOp 0x58000000_00000000_00000000_00000000#128).toNat = 5 ∧
    (∀ r ∈ opcodeMap, r.selects 0x58000000_00000000_00000000_00000000#128 = false) ∧
    (fieldOp 0x14000000_00000000_00000000_00000000#128).toNat = 1 ∧
    ∀ r ∈ opcodeMap, r.selects 0x14000000_00000000_00000000_00000000#128 = false := by decide

theorem witness_PollhWordActsAsPollWord : rowPollh.selects wordPollh = true ∧
    rowPollh.selects 0x3CFF07FF_00000000_FFFFFFFF_FFFFFFFF#128 = true := by decide

theorem witness_NextEventIsListedOrDrawn :
    (facing ready [.reset, .step quiet]).env = [.reset, .step quiet] ∧ ready.env = [] := by decide

theorem witness_StepRunsDecodedInstruction :
    (facing ready [.step (presenting wordPoll)]).takeEvent = (.step (presenting wordPoll), ready) ∧ ready.st = .idle ∧
    (presenting wordPoll).cmd = some wordPoll ∧
    decode wordPoll = .ok (.poll .queryResponse .data 2#8 0x200#11 0x200#11 0x0201#64) ∧
    decodeTableWord 128 (4 * 2 ^ 124) = some (.setTimeout 0#32) ∧
    (facing ready [.step quiet]).takeEvent = (.step quiet, ready) ∧ quiet.cmd = none := by decide

/-- One word for each clause; the lengths are 9, the first that fails. -/
theorem witness_AcceptanceChecksInOrder :
    (∀ w, (facing ready [.step (presenting w)]).takeEvent = (.step (presenting w), ready)) ∧
    (∀ w, (facing State.reset [.step (presenting w)]).takeEvent = (.step (presenting w), State.reset)) ∧
    ready.st = .idle ∧ ready.inited = true ∧ State.reset.st = .idle ∧ State.reset.inited = false ∧
    (∀ r ∈ opcodeMap, r.selects 0x60000000_00000000_00000000_00000000#128 = false) ∧
    rowInit.selects wordInit = true ∧ rowPoll.selects wordPoll = true ∧ rowPollh.selects wordPollh = true ∧
    rowSetTimeout.selects wordTimeout = true ∧
    rowPollh.selects 0x30090200_00000000_08070605_04030201#128 = true ∧
    (fieldLen 0x30090200_00000000_08070605_04030201#128).toNat = 9 ∧
    rowDecode.selects 0x50090000_00000000_00000000_00000000#128 = true ∧
    (fieldLen 0x50090000_00000000_00000000_00000000#128).toNat = 9 :=
  ⟨fun _ => rfl, fun _ => rfl, by decide⟩

theorem witness_BusyBlockAcceptsNoCommand : (polling .wait .queryResponse).st ≠ .idle ∧ constructing.st ≠ .idle := by decide

/-- Two sets of inputs that differ in every port, in a state that samples none of them, and pairs that agree only in the port
their state samples. -/
theorem witness_UnsampledInputsDoNotMatter :
    let a : Inputs := presenting wordPoll
    let b : Inputs := { cmd := none, beginDone := true, beginOk := true, errStatus := 1#8, now := 7#32 }
    (polling .matched .queryResponse).st = .matched ∧ a.cmd ≠ b.cmd ∧ a.beginDone ≠ b.beginDone ∧ a.errStatus ≠ b.errStatus ∧
    a.now ≠ b.now ∧ ready.st = .idle ∧ a.cmd = { b with cmd := a.cmd }.cmd ∧ constructing.st = .begin ∧
    a.beginDone = { b with beginDone := false }.beginDone ∧ (polling .transmit .queryResponse).st = .transmit ∧
    b.errStatus = { a with errStatus := 1#8 }.errStatus ∧ b.errStatus ≠ 0#8 ∧ (polling .wait .queryResponse).rxq = [] ∧
    a.now = { b with now := 0#32 }.now := by decide

theorem witness_InitAcceptanceStartsConstruction : State.reset.st = .idle ∧ State.reset.inited = false := by decide

theorem witness_InitAfterConstructionIsBadState : ready.st = .idle ∧ ready.inited = true := by decide

theorem witness_BeginWaitsCompletesOrFails :
    (∀ inp, (facing constructing [.step inp]).takeEvent = (.step inp, constructing)) ∧ constructing.st = .begin ∧
    quiet.beginDone = false ∧ (begun true).beginDone = true ∧ (begun true).beginOk = true ∧ (begun false).beginDone = true ∧
    (begun false).beginOk = false := ⟨fun _ => rfl, by decide⟩

theorem witness_InitRunCompletes :
    State.reset.st = .idle ∧ State.reset.inited = false ∧ (presenting wordInit).cmd = some wordInit ∧
    decode wordInit = .ok (.init false 0x100#11 500000#32 50#32) ∧ (∀ i ∈ [quiet, quiet], i.beginDone = false) ∧
    (begun true).beginDone = true ∧ (begun false).beginDone = true ∧
    (facing State.reset [.step (presenting wordInit), .step quiet, .step quiet, .step (begun true)]).env =
      .step (presenting wordInit) :: ([quiet, quiet].map Event.step ++ .step (begun true) :: []) := by decide

theorem witness_PollAcceptanceInstallsFilter : ready.st = .idle ∧ ready.inited = true ∧ (8#8).toNat ≤ 8 ∧ (0#8).toNat ≤ 8 := by
  decide

theorem witness_LongPayloadHasNoEffect : ready.st = .idle ∧ ready.inited = true ∧ 8 < (9#8).toNat ∧ 8 < (255#8).toNat := by
  decide

theorem witness_QueryFrameIsTransmitted :
    (facing (polling .filterSet .queryResponse) [.step quiet]).takeEvent = (.step quiet, polling .filterSet .queryResponse) ∧
    (polling .filterSet .queryResponse).st = .filterSet ∧ (polling .filterSet .queryResponse).rqMode = .queryResponse := by
  decide

theorem witness_TransmitPortMasksPayload :
    (facing (polling .filterSet .queryResponse) [.step quiet]).takeEvent = (.step quiet, polling .filterSet .queryResponse) ∧
    (polling .filterSet .queryResponse).rqLen.toNat ≤ 8 ∧
    ∃ t, step (facing (polling .filterSet .queryResponse) [.step quiet]) = .next t := ⟨rfl, by decide, _, rfl⟩

theorem witness_NoErrorEntersWait :
    (facing (polling .transmit .queryResponse) [.step (clock 1000#32)]).takeEvent =
      (.step (clock 1000#32), polling .transmit .queryResponse) ∧
    (facing (polling .filterSet .passiveListen) [.step (clock 1000#32)]).takeEvent =
      (.step (clock 1000#32), polling .filterSet .passiveListen) ∧
    (polling .filterSet .passiveListen).rqMode = .passiveListen ∧ (clock 1000#32).errStatus = 0#8 := by decide

theorem witness_BusErrorSendsDiagnosticFrame :
    (facing (polling .transmit .queryResponse) [.step failing]).takeEvent =
      (.step failing, polling .transmit .queryResponse) ∧
    (facing (polling .filterSet .passiveListen) [.step failing]).takeEvent =
      (.step failing, polling .filterSet .passiveListen) ∧ failing.errStatus ≠ 0#8 := by decide

/-- With frames of 8 bytes and of none, the ends of the range. -/
theorem witness_QueuedFrameWinsOverDeadline :
    (∀ f inp, (facing { polling .wait .queryResponse with rxq := [f, frame42] } [.step inp]).takeEvent =
      (.step inp, { polling .wait .queryResponse with rxq := [f, frame42] })) ∧ (polling .wait .queryResponse).st = .wait ∧
    frame42.len.toNat = 8 ∧ { frame42 with len := 0#4 }.len.toNat ≤ 8 := ⟨fun _ _ => rfl, by decide⟩

theorem witness_EmptyQueueTimesOutAtDeadline :
    (∀ inp, (facing { polling .wait .queryResponse with t0 := 1000#32 } [.step inp]).takeEvent =
      (.step inp, { polling .wait .queryResponse with t0 := 1000#32 })) ∧
    (polling .wait .queryResponse).rxq = [] ∧ 50#32 ≤ 1050#32 - 1000#32 ∧ 1049#32 - 1000#32 < 50#32 :=
  ⟨fun _ => rfl, by decide⟩

theorem witness_TerminalStatesRestoreFilter :
    (∀ ph : Phase, (facing (polling ph .queryResponse) [.step quiet]).takeEvent = (.step quiet, polling ph .queryResponse)) ∧
    ∀ ph : Phase, (polling ph .queryResponse).st = ph := ⟨fun _ => rfl, fun _ => rfl⟩

theorem witness_RestoredFilterAnswers :
    (facing (polling .filterRestored .queryResponse) [.step quiet]).takeEvent =
      (.step quiet, polling .filterRestored .queryResponse) ∧ (polling .filterRestored .queryResponse).st = .filterRestored := by
  decide

/-- A state for every row that is not met by a smaller statement's witness. -/
theorem witness_TransitionRelation :
    (∀ inp, (facing ready [.step inp]).Inv ∧ (facing ready [.step inp]).takeEvent = (.step inp, ready)) ∧
    (∀ inp, (facing unready [.step inp]).Inv) ∧ (∀ inp, (facing constructing [.step inp]).Inv) ∧
    (∀ inp mode, (facing (polling .filterSet mode) [.step inp]).Inv) ∧
    (∀ inp mode, (facing (polling .transmit mode) [.step inp]).Inv) ∧
    (∀ inp mode, (facing (polling .wait mode) [.step inp]).Inv) ∧
    Instr.request (.pollh .queryResponse .data 2#8 0x200#11 0x0201#64) =
      some (.queryResponse, .data, 2#8, 0x200#11, 0x200#11, 0x0201#64) :=
  ⟨fun _ => ⟨facing_inv ready_inv _, rfl⟩, fun _ => facing_inv unready_inv _, fun _ => facing_inv constructing_inv _,
   fun _ _ => facing_inv (polling_inv _ _ (.inl rfl)) _, fun _ _ => facing_inv (polling_inv _ _ (.inr (.inl rfl))) _,
   fun _ _ => facing_inv (polling_inv _ _ (.inr (.inr rfl))) _, rfl⟩

/-- S2: a query poll with two waiting steps. -/
theorem witness_PollTimesOutInItsSteps :
    ready.st = .idle ∧ ready.inited = true ∧ ready.rxq = [] ∧ (presenting wordPoll).cmd = some wordPoll ∧
    decode wordPoll = .ok (.poll .queryResponse .data 2#8 0x200#11 0x200#11 0x0201#64) ∧
    (Instr.poll .queryResponse .data 2#8 0x200#11 0x200#11 0x0201#64).request =
      some (.queryResponse, .data, 2#8, 0x200#11, 0x200#11, 0x0201#64) ∧
    (clock 2000#32).errStatus = 0#8 ∧ (∀ j ∈ [clock 2020#32, clock 2049#32], j.now - 2000#32 < ready.timeout) ∧
    ready.timeout ≤ (clock 2050#32).now - 2000#32 ∧
    (facing ready [.step (presenting wordPoll), .step quiet, .step (clock 2000#32), .step (clock 2020#32),
        .step (clock 2049#32), .step (clock 2050#32), .step quiet, .step quiet]).env =
      .step (presenting wordPoll) :: ([quiet].map Event.step ++ .step (clock 2000#32) ::
        ([clock 2020#32, clock 2049#32].map Event.step ++ .step (clock 2050#32) :: .step quiet :: .step quiet :: [])) := by
  refine ⟨?_, ?_, ?_, ?_, ?_, ?_, ?_, ?_, ?_, ?_⟩ <;> decide

/-- V-P row 1: a timeout of 0 passes at once. -/
theorem witness_PollTimesOutInItsSteps_listen : decode wordListen = .ok (.pollh .passiveListen .data 0#8 0x300#11 0#64) ∧
    (0#32 : Word32) ≤ (clock 700#32).now - 700#32 := by decide

/-- S1. -/
theorem witness_PollAnswersArrivingFrame :
    ready.st = .idle ∧ ready.inited = true ∧ ready.rxq = [] ∧ (presenting wordPollh).cmd = some wordPollh ∧
    decode wordPollh = .ok (.pollh .queryResponse .data 2#8 0x200#11 0x0201#64) ∧
    (Instr.pollh .queryResponse .data 2#8 0x200#11 0x0201#64).request =
      some (.queryResponse, .data, 2#8, 0x200#11, 0x200#11, 0x0201#64) ∧
    (clock 1000#32).errStatus = 0#8 ∧ (∀ j ∈ [clock 1003#32], j.now - 1000#32 < ready.timeout) ∧ frame42.id = 0x200#11 ∧
    decodeBytes frame42.data frame42.len.toNat = some 42#64 ∧
    (facing ready [.step (presenting wordPollh), .step quiet, .step (clock 1000#32), .step (clock 1003#32), .arrive frame42,
        .step quiet, .step quiet, .step quiet]).env =
      .step (presenting wordPollh) :: ([quiet].map Event.step ++ .step (clock 1000#32) ::
        ([clock 1003#32].map Event.step ++ .arrive frame42 :: .step quiet :: .step quiet :: .step quiet :: [])) := by
  refine ⟨?_, ?_, ?_, ?_, ?_, ?_, ?_, ?_, ?_, ?_, ?_⟩ <;> decide

/-- S3. -/
theorem witness_PollStopsAtBusError :
    ready.st = .idle ∧ ready.inited = true ∧ (presenting wordPoll).cmd = some wordPoll ∧
    decode wordPoll = .ok (.poll .queryResponse .data 2#8 0x200#11 0x200#11 0x0201#64) ∧
    (Instr.poll .queryResponse .data 2#8 0x200#11 0x200#11 0x0201#64).request =
      some (.queryResponse, .data, 2#8, 0x200#11, 0x200#11, 0x0201#64) ∧
    failing.errStatus ≠ 0#8 ∧
    (facing ready [.step (presenting wordPoll), .step quiet, .step failing, .step quiet, .step quiet]).env =
      .step (presenting wordPoll) :: ([quiet].map Event.step ++ .step failing :: .step quiet :: .step quiet :: []) := by
  refine ⟨?_, ?_, ?_, ?_, ?_, ?_, ?_⟩ <;> decide

/-- P2: the frame to 0x100 is queued when a listen for 0x300 is accepted. -/
theorem witness_PollAnswersStaleFrame :
    let s := facing { ready with rxq := [byteFrame 0x100#11 0x34#8] } [.step (presenting wordListen), .step (clock 500#32),
      .step quiet, .step quiet, .step quiet]
    s.st = .idle ∧ s.inited = true ∧ s.rxq = byteFrame 0x100#11 0x34#8 :: [] ∧
    (presenting wordListen).cmd = some wordListen ∧
    decode wordListen = .ok (.pollh .passiveListen .data 0#8 0x300#11 0#64) ∧
    (Instr.pollh .passiveListen .data 0#8 0x300#11 0#64).request =
      some (.passiveListen, .data, 0#8, 0x300#11, 0x300#11, 0#64) ∧
    (clock 500#32).errStatus = 0#8 ∧
    decodeBytes (byteFrame 0x100#11 0x34#8).data (byteFrame 0x100#11 0x34#8).len.toNat = some 0x34#64 ∧
    s.env = .step (presenting wordListen) :: (([] : List Inputs).map Event.step ++ .step (clock 500#32) :: .step quiet ::
      .step quiet :: .step quiet :: []) := by
  refine ⟨?_, ?_, ?_, ?_, ?_, ?_, ?_, ?_, ?_⟩ <;> decide

/-- P4 with the query of S1: the frame the poll transmits comes back. -/
theorem witness_LoopedQueryIsItsOwnAnswer :
    let f : Frame := ⟨0x200#11, .data, 2#4, #v[1#8, 2#8, 0#8, 0#8, 0#8, 0#8, 0#8, 0#8]⟩
    let s (w : CmdWord) := facing ready [.step (presenting w), .step quiet, .arrive f, .step (clock 5#32), .step quiet,
      .step quiet, .step quiet]
    (∀ w, (s w).st = .idle ∧ (s w).inited = true ∧ (s w).rxq = [] ∧ (presenting w).cmd = some w) ∧
    decode wordPollh = .ok (.pollh .queryResponse .data 2#8 0x200#11 0x0201#64) ∧
    (Instr.pollh .queryResponse .data 2#8 0x200#11 0x0201#64).request =
      some (.queryResponse, .data, 2#8, 0x200#11, 0x200#11, 0x0201#64) ∧
    decode wordPoll = .ok (.poll .queryResponse .data 2#8 0x200#11 0x200#11 0x0201#64) ∧
    (Instr.poll .queryResponse .data 2#8 0x200#11 0x200#11 0x0201#64).request =
      some (.queryResponse, .data, 2#8, 0x200#11, 0x200#11, 0x0201#64) ∧
    (clock 5#32).errStatus = 0#8 ∧ (∃ t, steps 2 (s wordPollh) = .next t ∧ t.outs = [.tx f]) ∧
    (∃ t, steps 2 (s wordPoll) = .next t ∧ t.outs = [.tx f]) ∧ decodeBytes (bytes 0x0201#64) 2 = some 0x0201#64 :=
  ⟨fun _ => ⟨rfl, rfl, rfl, rfl⟩, by decide, by decide, by decide, by decide, by decide, ⟨_, rfl, by decide⟩,
   ⟨_, rfl, by decide⟩, by decide⟩

theorem witness_SetTimeoutReplacesTimeout : ready.st = .idle ∧ ready.inited = true ∧ State.reset.st = .idle ∧
    State.reset.inited = false ∧ fieldOp 0x40010000_00000000_00000000_00000064#128 = 4#4 ∧
    rowSetTimeout.selects 0x40010000_00000000_00000000_00000064#128 = false ∧
    (facing ready [.step (presenting 0x40010000_00000000_00000000_00000064#128)]).takeEvent =
      (.step (presenting 0x40010000_00000000_00000000_00000064#128), ready) := by decide

theorem witness_LastSetTimeoutWins : ready.st = .idle ∧ ready.inited = true ∧
    ∃ t, exec (.setTimeout 100#32) ready = .next t := ⟨by decide, by decide, _, rfl⟩

theorem witness_DecodeCommandAnswersSum : State.reset.st = .idle ∧ (8#8).toNat ≤ 8 ∧ (0#8).toNat ≤ 8 := by decide

theorem witness_DecodeOfLongLengthIsIllegal : State.reset.st = .idle ∧ 8 < (9#8).toNat ∧ 8 < 9 := by decide

theorem witness_DecodeFunctionIsLittleEndian : 0 ≤ 8 ∧ decodeBytes frame42.data 8 = some 42#64 := by decide

/-- Every clause: V-D rows 1, 3, 6, 7, 9, 10. -/
theorem witness_DecodeFunctionProperties :
    byteAt frame42.data 0 = 0x2A#8 ∧ byteAt frame42.data 1 = 0x00#8 ∧ decodeBytes frame42.data 2 = some 42#64 ∧
    decodeBytes (bytes 0xDEADBEEF#64) 4 = some 0xDEADBEEF#64 ∧
    decodeBytes (Vector.replicate 8 0xFF#8) 8 = some SENTINEL ∧
    decodeBytes (Vector.replicate 8 0xFF#8) 7 = some 0x00FFFFFFFFFFFFFF#64 := by decide

theorem witness_SetFilterReplacesTable :
    let p : Params := ⟨0, 3, .data, 0, Vector.replicate 8 0#8⟩
    State.reset.ftab.length < p.nfilt ∧ p.nfilt ≤ ready.ftab.length := by decide

/-- The boundary lengths 8 and 9; an accepted and a rejected identifier; the empty queue has room. -/
theorem witness_ArrivalQueuesAcceptedFrame :
    (∀ f, (facing ready [.arrive f]).takeEvent = (.arrive f, ready)) ∧ frame42.len.toNat = 8 ∧
    accept ready.ftab (byteFrame 0x100#11 1#8).id = true ∧ accept ready.ftab frame42.id = false ∧
    8 < { frame42 with len := 9#4 }.len.toNat ∧ ready.rxq.length < Config.params.rxqDepth :=
  ⟨fun _ => rfl, by decide, by decide, by decide, by decide, Nat.succ_pos _⟩

/-- A full queue, whatever the depth. -/
theorem witness_ArrivalQueuesAcceptedFrame_full :
    Config.params.rxqDepth ≤ (List.replicate Config.params.rxqDepth frame42).length := by
  rw [List.length_replicate]

/-- One step of each kind. -/
theorem witness_steps_that_answer :
    (∃ t, step (facing ready [.arrive (byteFrame 0x100#11 1#8)]) = .next t) ∧
    (∃ t, step (facing ready [.reset]) = .next t) ∧ (∃ t, step (facing ready [.step (presenting wordPoll)]) = .next t) ∧
    (∃ t, step (facing constructing [.step (begun true)]) = .next t) ∧
    (∃ t, step (facing { polling .wait .queryResponse with rxq := [frame42] } [.step quiet]) = .next t) ∧
    ∃ t, step (facing (polling .matched .queryResponse) [.step quiet]) = .next t :=
  ⟨⟨_, rfl⟩, ⟨_, rfl⟩, ⟨_, rfl⟩, ⟨_, rfl⟩, ⟨_, rfl⟩, ⟨_, rfl⟩⟩

theorem witness_QueueChangesOnlyByArrivalPopReset :
    ∃ t, step (facing ready [.arrive (byteFrame 0x100#11 1#8)]) = .next t := witness_steps_that_answer.1

theorem witness_FilterChangesOnlyByReplacement :
    ∃ t, step (facing ready [.step (presenting wordPoll)]) = .next t := witness_steps_that_answer.2.2.1

theorem witness_FilterWindow :
    (∀ f, (facing (polling .wait .queryResponse) [.arrive f]).Inv ∧
      (facing (polling .wait .queryResponse) [.arrive f]).takeEvent = (.arrive f, polling .wait .queryResponse)) ∧
    Phase.wait.filtering = true ∧ (byteFrame 0x100#11 1#8).id = (polling .wait .queryResponse).nodeId ∧
    (polling .wait .queryResponse).nodeId ≠ (polling .wait .queryResponse).rqFilt ∧
    frame42.id = (polling .wait .queryResponse).rqFilt ∧ frame42.len.toNat ≤ 8 ∧
    (polling .wait .queryResponse).rxq.length < Config.params.rxqDepth :=
  ⟨fun _ => ⟨facing_inv (polling_inv _ _ (.inr (.inr rfl))) _, rfl⟩, by decide, by decide, by decide, by decide, by decide, Nat.succ_pos _⟩

/-- V-I row 4, and a frame that arrives while the bus initialises. -/
theorem witness_UnconstructedBlockAcceptsNoFrame :
    (facing unready [.arrive frame42]).Inv ∧ (facing constructing [.arrive frame42]).Inv ∧
    (facing unready [.arrive frame42]).takeEvent = (.arrive frame42, unready) ∧
    unready.inited = false ∧ constructing.inited = false ∧ frame42.len.toNat ≤ 8 :=
  ⟨facing_inv unready_inv _, facing_inv constructing_inv _, rfl, by decide, by decide, by decide⟩

/-- A step that answers TIMED_OUT. -/
theorem witness_FailureCarriesSentinel :
    let s := facing restored [.step quiet]
    s.Inv ∧ (∃ t, step s = .next t ∧ .respond .timedOut SENTINEL ∈ t.outs) ∧ Status.timedOut ≠ .ok :=
  ⟨facing_inv restored_inv _, ⟨_, rfl, by decide⟩, by decide⟩

theorem witness_OnlyQueryAndDiagnosticTransmit :
    (∃ t, step (facing (polling .filterSet .queryResponse) [.step quiet]) = .next t ∧ t.transmissions = 1) ∧
    (∃ t, step (facing (polling .transmit .queryResponse) [.step failing]) = .next t ∧ t.transmissions = 1) ∧
    ∃ t, step (facing (polling .transmit .queryResponse) [.step quiet]) = .next t ∧ t.transmissions = 0 :=
  ⟨⟨_, rfl, by decide⟩, ⟨_, rfl, by decide⟩, ⟨_, rfl, by decide⟩⟩

theorem witness_ConfigurationIsImmutable :
    let s := facing ready [.step (presenting wordInit)]
    s.inited = true ∧ s.takeEvent.1 ≠ .reset ∧ ∃ t, step s = .next t := ⟨by decide, by decide, _, rfl⟩

theorem witness_TimeoutChangesOnlyByItsCommands :
    let s := facing ready [.step (presenting wordTimeout)]
    s.takeEvent.1 ≠ .reset ∧ ∃ t, step s = .next t ∧ t.timeout ≠ s.timeout := ⟨by decide, _, rfl, by decide⟩

/-- The count wraps between the two samples, V-P row 4. -/
theorem witness_DeadlineMeasuresTrueElapsedTime : 4294967280 ≤ 4294967380 ∧ BitVec.ofNat 32 4294967380 = 84#32 := by decide

theorem witness_ResetDropsEverything :
    (facing (polling .wait .queryResponse) [.reset]).takeEvent = (.reset, polling .wait .queryResponse) := by decide

theorem witness_StepKeepsInvariants :
    (facing ready [.step (presenting wordPoll)]).Inv ∧ (∃ t, step (facing ready [.step (presenting wordPoll)]) = .next t) ∧
    (facing timedOut [.step quiet]).Inv :=
  ⟨facing_inv ready_inv _, ⟨_, rfl⟩, facing_inv timedOut_inv _⟩

theorem witness_InvariantStatesNeverStop :
    (facing ready [.arrive frame42]).Inv ∧ (facing ready [.arrive frame42]).takeEvent.1.inContract = true :=
  ⟨facing_inv ready_inv _, by decide⟩

theorem witness_ResponseFindsDefaultFilter :
    let s := facing restored [.step quiet]
    s.Inv ∧ ∃ t, step s = .next t ∧ 0 < t.responses := ⟨facing_inv restored_inv _, _, rfl, by decide⟩

/-- A command answered at once, and one still in progress. -/
theorem witness_ResponsesBalanceAcceptedCommands :
    (∃ t, tally 1 (facing ready [.step (presenting wordTimeout)]) = some (1, 1, t)) ∧
    ∃ t, tally 2 (facing ready [.step (presenting wordPoll), .step quiet]) = some (1, 0, t) := ⟨⟨_, rfl⟩, ⟨_, rfl⟩⟩

/-- Two states that differ in registers which nothing reads in IDLE. -/
theorem witness_DeadRegistersDoNotShow :
    SameLive ready { ready with rqHdr := 1#11, rqData := 5#64, t0 := 9#32, outStatus := .badState, cfgBitrate := 7#32 } ∧
    ready ≠ { ready with rqHdr := 1#11, rqData := 5#64, t0 := 9#32, outStatus := .badState, cfgBitrate := 7#32 } :=
  ⟨⟨rfl, rfl, rfl, rfl, rfl, rfl, rfl, fun _ => ⟨rfl, rfl⟩, by decide, by decide, by decide, by decide⟩, by decide⟩

/-- The state after reset, and the same with another value in every register the spec leaves unspecified. -/
theorem witness_UnspecifiedResetRegistersNeverShow :
    let t : State := { State.reset with
      nodeId := 1#11, timeout := 1#32, cfgBitrate := 1#32, cfgDebug := true, rqHdr := 1#11,
      rqFilt := 1#11, rqMode := .passiveListen, rqKind := .remote, rqLen := 15#4, rqData := 1#64, t0 := 1#32,
      outStatus := .badState, outValue := 1#64 }
    t.st = .idle ∧ t.inited = false ∧ t.ftab = [] ∧ t.rxq = [] ∧ t.outs = [] ∧ State.reset.st = .idle ∧
    State.reset.inited = false ∧ State.reset.ftab = [] ∧ State.reset.rxq = [] ∧ State.reset.outs = [] ∧
    State.reset.env = t.env ∧ State.reset.draws = t.draws ∧ State.reset ≠ t := by decide

/-- One step of each kind of output event, and one without any. -/
theorem witness_PortsShowEventsAndFrames :
    (∃ t, step (facing ready [.step (presenting wordTimeout)]) = .next t ∧ t.rspPort = some (0#3, 0#64)) ∧
    (∃ t, step (facing (polling .filterSet .queryResponse) [.step quiet]) = .next t ∧
      t.txPort = some (0x200#11, false, 2#4, 0x0201#64)) ∧
    (∃ t, step (State.reset.withFetchWord 128 0x18000100000000000007A12000000032) = .next t ∧
      t.beginPort = some (500000#32, true)) ∧
    ∃ t, step (facing ready [.step quiet]) = .next t ∧ t.outs = [] :=
  ⟨⟨_, rfl, by decide⟩, ⟨_, rfl, by decide⟩, ⟨_, rfl, by decide⟩, ⟨_, rfl, by decide⟩⟩

end Sys2Proof.Tests
end

section
/-! SUPPORT. The scope of the model: the next event, the step that runs a presented word, progress under the invariants,
and the balance of accepted commands and responses (spec/00_scope.md). -/

namespace Sys2Proof.Machine

variable {p : Params} {inp : Inputs} {s t u : State}

/-! ## The next event -/

/-- A freely drawn arrival has the length of its draw, at most 8, so every draw keeps R196. -/
theorem freeEvent_inContract (n : Nat) : (freeEvent n).inContract = true := by
  cases hk : Config.freeEventKind n with
  | reset => simp [freeEvent, hk, Event.inContract]
  | step => simp [freeEvent, hk, Event.inContract]
  | arrive =>
    have hlen := (Config.freeFrameLen n).isLt
    simp only [freeEvent, hk, Event.inContract, MAX_LEN, BitVec.toNat_ofNat, decide_eq_true_eq]
    omega

/-- Settles O6: the two branches of `takeEvent`, and the length of a freely drawn arrival. -/
theorem nextEventIsListedOrDrawn : Obligations.NextEventIsListedOrDrawn :=
  ⟨fun _ _ _ h => takeEvent_cons h, fun _ h => takeEvent_nil h, freeEvent_inContract⟩

/-! ## A presented word -/

/-- A step event in IDLE with a word that decodes to `i` on the command port runs `i` (R91). -/
theorem step_eq_exec {w : CmdWord} {i : Instr} (he : s.takeEvent = (.step inp, u)) (hi : u.st = .idle)
    (hc : inp.cmd = some w) (hd : decode w = .ok i) : step s = exec i u := by
  rw [step_of_takeEvent he]
  simp only [runEvent, sequencerStep, hi, hc, acceptWord, hd, if_true]

/-- A step event in IDLE with no word on the command port only passes (R138, first row). -/
theorem step_eq_next_of_cmd_none (he : s.takeEvent = (.step inp, u)) (hi : u.st = .idle) (hc : inp.cmd = none) :
    step s = .next u := by
  rw [step_of_takeEvent he]
  simp only [runEvent, sequencerStep, hi, hc, if_true]

/-- The event that `withFetchWord` puts in front is taken next, and leaves the state it was put in front of. -/
theorem takeEvent_withFetchWord (s : State) (nbits w : Nat) :
    (s.withFetchWord nbits w).takeEvent = (.step (presenting (tableWord nbits w)), { s with outs := [] }) := rfl

theorem decodeTableWord_eq_some {nbits w : Nat} {i : Instr} :
    decodeTableWord nbits w = some i ↔ decode (tableWord nbits w) = .ok i := by
  cases h : decode (tableWord nbits w) <;> simp [decodeTableWord, h]

/-- Settles O7: the step lemmas for IDLE, with and without a word, and the event of `withFetchWord`. -/
theorem stepRunsDecodedInstruction : Obligations.StepRunsDecodedInstruction := by
  refine ⟨fun _ _ _ _ _ => step_eq_exec, fun s w i hi hw => ?_, fun _ _ _ => step_eq_next_of_cmd_none⟩
  exact step_eq_exec (takeEvent_withFetchWord s 128 w) hi rfl (decodeTableWord_eq_some.1 hw)

/-! ## Progress -/

theorem whenIdle_next {r : Result} (h : ∃ t, r = .next t) : ∃ t, whenIdle s r = .next t := by
  by_cases hs : s.st = .idle
  · rwa [whenIdle_idle r hs]
  · exact ⟨s, whenIdle_busy r hs⟩

/-- SETFILTER never meets a full table, so the step that calls it goes on (R173, R174). -/
theorem afterFilter_setFilter (s : State) (p : Params) (id : CanId) (next : State → State) :
    afterFilter (s.setFilter p id) next = .next (next { s with ftab := [⟨id, MASK_EXACT⟩] }) := rfl

theorem acceptPoll_next (mode : Mode) (kind : Kind) (len : BitVec 8) (hdr filt : CanId) (payload : Value) (s : State) :
    ∃ t, acceptPoll mode kind len hdr filt payload s = .next t := by
  refine whenIdle_next ?_
  rw [afterFilter_setFilter]
  split_ifs <;> exact ⟨_, rfl⟩

/-- Every command has a next state in every state: a failure is a response (R11, R87, R220). -/
theorem exec_next (i : Instr) (s : State) : ∃ t, exec i s = .next t := by
  cases i with
  | init debug node bitrate timeout => exact whenIdle_next (by split_ifs <;> exact ⟨_, rfl⟩)
  | poll mode kind len hdr filt payload => exact acceptPoll_next mode kind len hdr filt payload s
  | pollh mode kind len hdr payload => exact acceptPoll_next mode kind len hdr hdr payload s
  | setTimeout timeout => exact whenIdle_next (by split_ifs <;> exact ⟨_, rfl⟩)
  | decode len operand => exact whenIdle_next (by split <;> exact ⟨_, rfl⟩)

theorem acceptWord_next (w : CmdWord) (s : State) : ∃ t, acceptWord exec w s = .next t := by
  cases hd : decode w with
  | ok i => simpa only [acceptWord, hd] using exec_next i s
  | error e => simpa only [acceptWord, hd, rejectWord] using whenIdle_next ⟨_, rfl⟩

theorem stepBegin_next (p : Params) (inp : Inputs) (s : State) : ∃ t, stepBegin p inp s = .next t := by
  unfold stepBegin State.setFilterDefault
  rw [afterFilter_setFilter]
  split_ifs <;> exact ⟨_, rfl⟩

theorem stepFilterSet_next (p : Params) (inp : Inputs) (s : State) : ∃ t, stepFilterSet p inp s = .next t := by
  cases hm : s.rqMode with
  | queryResponse => exact ⟨_, by rw [stepFilterSet, hm]⟩
  | passiveListen => exact ⟨_, by rw [stepFilterSet, hm]; exact errorCheck_eq⟩

/-- A queued frame of at most 8 bytes has a decoded value, so the wait goes on or ends (R128, R129, R130, R163). -/
theorem stepWait_next (inp : Inputs) (hq : ∀ f ∈ s.rxq, f.len.toNat ≤ MAX_LEN) : ∃ t, stepWait inp s = .next t := by
  cases hr : s.rxq with
  | nil =>
    simp only [stepWait, pop_nil hr]
    split_ifs <;> exact ⟨_, rfl⟩
  | cons f q =>
    have hlen : f.len.toNat ≤ MAX_LEN := hq f (by simp [hr])
    simp only [stepWait, pop_cons hr, decodeBytes_of_le hlen]
    exact ⟨_, rfl⟩

/-- Every state of R138 has a next state, as long as the queued frames are short. -/
theorem advance_next (p : Params) (inp : Inputs) (hq : ∀ f ∈ s.rxq, f.len.toNat ≤ MAX_LEN) :
    ∃ t, advance p inp s = .next t := by
  cases hst : s.st <;> simp only [advance, hst]
  case idle => exact ⟨s, rfl⟩
  case begin => exact stepBegin_next p inp s
  case filterSet => exact stepFilterSet_next p inp s
  case transmit => exact ⟨_, errorCheck_eq⟩
  case wait => exact stepWait_next inp hq
  case matched | timedOut | errored => exact ⟨_, afterFilter_setFilter s p s.nodeId _⟩
  case filterRestored => exact ⟨_, rfl⟩

theorem sequencerStep_next (p : Params) (inp : Inputs) (hq : ∀ f ∈ s.rxq, f.len.toNat ≤ MAX_LEN) :
    ∃ t, sequencerStep p exec inp s = .next t := by
  unfold sequencerStep
  by_cases hs : s.st = .idle
  · rw [if_pos hs]
    cases inp.cmd with
    | none => exact ⟨s, rfl⟩
    | some w => exact acceptWord_next w s
  · rw [if_neg hs]
    exact advance_next p inp hq

theorem arrive_next (p : Params) {f : Frame} (hf : f.len.toNat ≤ MAX_LEN) : ∃ t, s.arrive p f = .next t := by
  rw [State.arrive, if_pos hf]
  split_ifs <;> exact ⟨_, rfl⟩

/-- An event within the contract has a next state where the queued frames are short. -/
theorem runEvent_next (p : Params) {e : Event} (he : e.inContract = true) (hq : ∀ f ∈ s.rxq, f.len.toNat ≤ MAX_LEN) :
    ∃ t, runEvent p exec e s = .next t := by
  cases e with
  | reset => exact ⟨_, rfl⟩
  | arrive f => exact arrive_next p (of_decide_eq_true he)
  | step inp => exact sequencerStep_next p inp hq

/-- Settles O54: of the invariants, progress needs only that queued frames are short (I-g). -/
theorem invariantStatesNeverStop : Obligations.InvariantStatesNeverStop := fun s hInv he =>
  runEvent_next Config.params he (by simpa using hInv.framesShort)

/-! ## The balance of commands and responses -/

theorem busy_of_idle (h : t.st = .idle) : t.busy = false := by simp [State.busy, h]

theorem busy_of_not_idle (h : t.st ≠ .idle) : t.busy = true := by simp [State.busy, h]

theorem busy_congr (h : t.st = s.st) : t.busy = s.busy := by rw [State.busy, State.busy, h]

theorem responses_congr (h : t.outs = u.outs) : t.responses = u.responses := by
  rw [State.responses, State.responses, h]

@[simp] theorem takeEvent_snd_responses (s : State) : s.takeEvent.2.responses = 0 := by simp [State.responses]

theorem responses_of_respond {status : Status} {value : Value} (h : t.outs = u.outs ++ [.respond status value]) :
    t.responses = u.responses + 1 := by
  simp [State.responses, h, OutEvent.isResponse]

theorem responses_of_no_response {e : OutEvent} (h : t.outs = u.outs ++ [e]) (he : e.isResponse = false) :
    t.responses = u.responses := by
  simp [State.responses, h, he]

/-- A command that is answered is over. -/
theorem balance_of_answer {status : Status} {value : Value} (hs : t.st = .idle)
    (h : t.outs = u.outs ++ [.respond status value]) : t.responses + t.busy.toNat = u.responses + 1 := by
  rw [responses_of_respond h, busy_of_idle hs, Bool.toNat_false]

/-- A failure decided in IDLE is the answer. -/
theorem raise_balance {status : Status} (hs : u.st = .idle) :
    (u.raise status).responses + (u.raise status).busy.toNat = u.responses + 1 := balance_of_answer hs rfl

/-- A command that is not answered stays in progress. -/
theorem balance_of_progress (hs : t.st ≠ .idle) (h : t.responses = u.responses) :
    t.responses + t.busy.toNat = u.responses + 1 := by
  rw [h, busy_of_not_idle hs, Bool.toNat_true]

/-- An accepted command is answered at once, or in progress (R91). -/
theorem Accepted.balance {i : Instr} (hs : u.st = .idle) (h : Accepted u i t) :
    t.responses + t.busy.toNat = u.responses + 1 := by
  cases h with
  | answered _ _ _ _ => exact balance_of_answer hs rfl
  | construction _ _ _ _ _ => exact balance_of_progress nofun (responses_of_no_response rfl rfl)
  | timeout _ _ => exact balance_of_answer hs rfl
  | request _ _ _ _ _ _ _ _ _ _ => exact balance_of_progress nofun (responses_congr rfl)

/-- A transition answers the command in progress and ends it, or keeps it in progress (R138). -/
theorem Move.balance (h : Move p inp u t) : t.responses + t.busy.toNat = u.responses + 1 := by
  cases h with
  | beginWaits hst _ => exact balance_of_progress (by simp [hst]) rfl
  | beginCompletes _ _ _ => exact balance_of_answer rfl rfl
  | beginFails _ _ _ => exact balance_of_answer rfl rfl
  | query _ _ => exact balance_of_progress nofun (responses_of_no_response rfl rfl)
  | noError _ _ => exact balance_of_progress nofun (responses_congr rfl)
  | busError _ _ => exact balance_of_progress nofun (responses_of_no_response rfl rfl)
  | frame _ _ _ _ _ _ => exact balance_of_progress nofun (responses_congr rfl)
  | deadline _ _ _ => exact balance_of_progress nofun (responses_congr rfl)
  | keepWaiting hst _ _ => exact balance_of_progress (by simp [hst]) rfl
  | restore _ => exact balance_of_progress nofun (responses_congr rfl)
  | answer _ => exact balance_of_answer rfl rfl

/-- An arrival touches neither the command in progress nor the output ports (R178, R179). -/
theorem arrive_st_outs {f : Frame} (h : u.arrive p f = .next t) : t.st = u.st ∧ t.outs = u.outs := by
  obtain ⟨_, ⟨_, _, rfl⟩ | ⟨_, rfl⟩⟩ := arrive_cases h <;> exact ⟨rfl, rfl⟩

theorem acceptsNext_of_arrive {f : Frame} (he : s.takeEvent.1 = .arrive f) : s.acceptsNext = false := by
  rw [State.acceptsNext, he]

theorem acceptsNext_of_step (he : s.takeEvent.1 = .step inp) : s.acceptsNext = (s.cmdReady && inp.cmd.isSome) := by
  rw [State.acceptsNext, he]

theorem acceptsNext_of_word {w : CmdWord} (he : s.takeEvent.1 = .step inp) (hs : s.st = .idle) (hc : inp.cmd = some w) :
    s.acceptsNext = true := by
  simp [acceptsNext_of_step he, State.cmdReady, hs, hc]

/-- The balance of one step that is no reset. -/
theorem step_balance (hr : s.takeEvent.1 ≠ .reset) (h : step s = .next t) :
    t.responses + t.busy.toNat = s.acceptsNext.toNat + s.busy.toNat := by
  have hst : s.takeEvent.2.st = s.st := takeEvent_snd_st s
  have h0 : s.takeEvent.2.responses = 0 := takeEvent_snd_responses s
  obtain ⟨he, _⟩ | ⟨f, he, ha⟩ | ⟨inp, he, hcase⟩ := step_cases h
  · exact absurd he hr
  · obtain ⟨hts, hto⟩ := arrive_st_outs ha
    rw [responses_congr hto, h0, busy_congr (hts.trans hst), acceptsNext_of_arrive he, Bool.toNat_false]
  · obtain ⟨hs, hc, rfl⟩ | ⟨w, i, hs, hc, _, ha⟩ | ⟨w, e, hs, hc, _, rfl⟩ | ⟨hs, hm⟩ := hcase
    · rw [h0, busy_congr hst, acceptsNext_of_step he, hc, Option.isSome_none, Bool.and_false, Bool.toNat_false]
    · rw [ha.balance (hst.trans hs), h0, acceptsNext_of_word he hs hc, busy_of_idle hs, Bool.toNat_true, Bool.toNat_false]
    · rw [raise_balance (hst.trans hs), h0, acceptsNext_of_word he hs hc, busy_of_idle hs, Bool.toNat_true,
        Bool.toNat_false]
    · have hready : s.cmdReady = false := by simp [State.cmdReady, hs]
      rw [hm.balance, h0, acceptsNext_of_step he, hready, busy_of_not_idle hs, Bool.false_and, Bool.toNat_false,
        Bool.toNat_true]

/-- A tally of `n + 1` steps is the first step, no reset, and a tally of the other `n`. -/
theorem tally_succ {n accepted responses : Nat} (h : tally (n + 1) s = some (accepted, responses, t)) :
    ∃ u a r, s.takeEvent.1 ≠ .reset ∧ step s = .next u ∧ tally n u = some (a, r, t) ∧
      accepted = s.acceptsNext.toNat + a ∧ responses = u.responses + r := by
  rw [tally] at h
  by_cases hr : s.takeEvent.1 = .reset
  · simp [hr] at h
  · rw [if_neg hr] at h
    cases hu : step s with
    | next u =>
      rw [hu] at h
      obtain ⟨⟨a, r, t'⟩, htally, heq⟩ := Option.map_eq_some_iff.1 h
      cases heq
      exact ⟨u, a, r, hr, rfl, htally, rfl, rfl⟩
    | fault q => cases q
    | refused q => simp [hu] at h

/-- Settles O56, by induction on the number of steps: each step keeps the balance. -/
theorem responsesBalanceAcceptedCommands : Obligations.ResponsesBalanceAcceptedCommands := by
  intro n
  induction n with
  | zero => intro accepted responses s t h; cases h; rfl
  | succ n ih =>
    intro accepted responses s t h
    obtain ⟨u, a, r, hr, hstep, htally, rfl, rfl⟩ := tally_succ h
    have hone := step_balance hr hstep
    have hrest := ih a r u t htally
    omega

end Sys2Proof.Machine
end

section
/-! SUPPORT. The state of the block (spec/10_state.md): the invariants of R34 phase by phase, registers that are dead in a
phase, and what a step can do to the queue, the filter table and the configuration. -/

namespace Sys2Proof.Machine

variable {p : Params} {inp : Inputs} {s t u : State}

/-! ## The invariants, phase by phase -/

/-- What R30 and I-g of R34 ask of the receive queue. -/
def QueueInv (q : List Frame) : Prop :=
  (∀ f ∈ q, f.len.toNat ≤ MAX_LEN) ∧ q.length ≤ Config.params.rxqDepth

/-- I-c: what holds while a poll's own filter is installed. -/
def State.PollInv (s : State) : Prop := s.inited = true ∧ s.ftab = [s.pollEntry] ∧ s.rqLen.toNat ≤ MAX_LEN

/-- What the invariants ask of the other registers in each phase. -/
def State.PhaseInv (s : State) : Phase → Prop
  | .idle => (s.inited = true → s.ftab = [s.defaultEntry]) ∧ (s.inited = false → s.ftab = [] ∧ s.rxq = [])
  | .begin => s.inited = false ∧ s.ftab = [] ∧ s.rxq = []
  | .filterSet => s.PollInv
  | .transmit => s.PollInv
  | .wait => s.PollInv
  | .matched => s.PollInv ∧ s.outStatus = .ok
  | .timedOut => s.PollInv ∧ s.outStatus = .timedOut ∧ s.outValue = SENTINEL
  | .errored => s.PollInv ∧ s.outStatus = .busError ∧ s.outValue = SENTINEL
  | .filterRestored => (s.inited = true ∧ s.ftab = [s.defaultEntry]) ∧
      (s.outStatus = .ok ∨ (s.outStatus = .timedOut ∧ s.outValue = SENTINEL) ∨
        (s.outStatus = .busError ∧ s.outValue = SENTINEL))

theorem State.Inv.queueInv (h : s.Inv) : QueueInv s.rxq := ⟨h.framesShort, h.queueBounded⟩

theorem State.Inv.phaseInv (h : s.Inv) : s.PhaseInv s.st := by
  have poll (hf : s.st.filtering = true) : s.PollInv := h.filtering hf
  cases hst : s.st with
  | idle =>
    refine ⟨h.idleDefault hst, fun hn => ?_⟩
    obtain ⟨htab, hq, _⟩ := h.unconstructed hn
    exact ⟨htab, hq⟩
  | begin =>
    have hn : s.inited = false := h.constructing hst
    obtain ⟨htab, hq, _⟩ := h.unconstructed hn
    exact ⟨hn, htab, hq⟩
  | filterSet | transmit | wait => exact poll (by rw [hst]; rfl)
  | matched => exact ⟨poll (by rw [hst]; rfl), h.matchedOk hst⟩
  | timedOut => exact ⟨poll (by rw [hst]; rfl), h.timedOutPrepared hst⟩
  | errored => exact ⟨poll (by rw [hst]; rfl), h.erroredPrepared hst⟩
  | filterRestored => exact ⟨h.restored hst, h.restoredPrepared hst⟩

theorem State.PhaseInv.pollInv {ph : Phase} (hp : s.PhaseInv ph) (hf : ph.filtering = true) : s.PollInv := by
  cases ph with
  | filterSet | transmit | wait => exact hp
  | matched | timedOut | errored => exact hp.1
  | idle | begin | filterRestored => cases hf

theorem State.PhaseInv.unconstructed {ph : Phase} (hp : s.PhaseInv ph) (hn : s.inited = false) :
    s.ftab = [] ∧ s.rxq = [] ∧ (ph = .idle ∨ ph = .begin) := by
  have contra {q : Prop} (hi : s.inited = true) : q := absurd (hn.symm.trans hi) nofun
  cases ph with
  | idle =>
    obtain ⟨htab, hq⟩ := hp.2 hn
    exact ⟨htab, hq, .inl rfl⟩
  | begin =>
    obtain ⟨_, htab, hq⟩ := hp
    exact ⟨htab, hq, .inr rfl⟩
  | filterSet | transmit | wait => exact contra hp.1
  | matched | timedOut | errored | filterRestored => exact contra hp.1.1

theorem State.PhaseInv.oneEntry {ph : Phase} (hp : s.PhaseInv ph) : s.ftab.length ≤ 1 := by
  have one {e : FilterEntry} (h : s.ftab = [e]) : s.ftab.length ≤ 1 := by rw [h, List.length_singleton]
  cases hn : s.inited with
  | false => rw [(hp.unconstructed hn).1]; exact Nat.zero_le 1
  | true =>
    cases ph with
    | idle => exact one (hp.1 hn)
    | begin => exact absurd (hn.symm.trans hp.1) nofun
    | filterRestored => exact one hp.1.2
    | filterSet | transmit | wait | matched | timedOut | errored =>
      obtain ⟨_, htab, _⟩ := hp.pollInv rfl
      exact one htab

theorem inv_of_queueInv_phaseInv (hq : QueueInv s.rxq) (hp : s.PhaseInv s.st) : s.Inv where
  idleDefault hst := (hst ▸ hp : s.PhaseInv .idle).1
  unconstructed := hp.unconstructed
  constructing hst := (hst ▸ hp : s.PhaseInv .begin).1
  filtering := hp.pollInv
  restored hst := (hst ▸ hp : s.PhaseInv .filterRestored).1
  oneEntry := hp.oneEntry
  framesShort := hq.1
  queueBounded := hq.2
  matchedOk hst := (hst ▸ hp : s.PhaseInv .matched).2
  timedOutPrepared hst := (hst ▸ hp : s.PhaseInv .timedOut).2
  erroredPrepared hst := (hst ▸ hp : s.PhaseInv .errored).2
  restoredPrepared hst := (hst ▸ hp : s.PhaseInv .filterRestored).2

/-- The invariants, split into those of the queue and those of the phase. -/
theorem inv_iff : s.Inv ↔ QueueInv s.rxq ∧ s.PhaseInv s.st :=
  ⟨fun h => ⟨h.queueInv, h.phaseInv⟩, fun ⟨hq, hp⟩ => inv_of_queueInv_phaseInv hq hp⟩

/-! ## Every event keeps the invariants -/

/-- The invariants speak of no field that taking an event changes. -/
theorem State.Inv.takeEvent (h : s.Inv) : s.takeEvent.2.Inv := by
  obtain ⟨hq, hp⟩ := inv_iff.1 h
  rw [takeEvent_frame]
  exact inv_iff.2 ⟨hq, hp⟩

theorem State.Inv.raise (h : s.Inv) (status : Status) : (s.raise status).Inv := by
  obtain ⟨hq, hp⟩ := inv_iff.1 h
  exact inv_iff.2 ⟨hq, hp⟩

theorem inv_resetBlock (s : State) : s.resetBlock.Inv :=
  inv_iff.2 ⟨⟨nofun, Nat.zero_le _⟩, nofun, fun _ => ⟨rfl, rfl⟩⟩

/-- An accepted frame is short and finds room, and a filter that accepts it is not empty (R178, R180, R196). -/
theorem State.Inv.arrive {f : Frame} (h : u.Inv) (ha : u.arrive Config.params f = .next t) : t.Inv := by
  obtain ⟨hlen, ⟨hacc, hroom, rfl⟩ | ⟨_, rfl⟩⟩ := arrive_cases ha
  · have hun : u.inited ≠ false := fun hn => by simp [(h.unconstructed hn).1, accept_nil] at hacc
    exact { h with
      unconstructed := fun hn => absurd hn hun
      framesShort := by simpa [or_imp, forall_and] using ⟨h.framesShort, hlen⟩
      queueBounded := by simpa using hroom }
  · exact h

/-- The acceptance step of a command keeps the invariants (R111, R123). -/
theorem Accepted.inv {i : Instr} (ha : Accepted u i t) (hs : u.st = .idle) (h : u.Inv) : t.Inv := by
  obtain ⟨hq, hp⟩ := inv_iff.1 h
  refine inv_iff.2 ?_
  cases ha with
  | answered _ _ _ _ => exact ⟨hq, hp⟩
  | construction _ _ _ _ hn =>
    rw [hs] at hp
    exact ⟨hq, hn, hp.2 hn⟩
  | timeout _ _ => exact ⟨hq, hp⟩
  | request _ _ _ len _ _ _ hn hl _ =>
    have hlen : (len.extractLsb' 0 4).toNat ≤ MAX_LEN := by
      rw [BitVec.extractLsb'_toNat, Nat.shiftRight_zero]
      exact (Nat.mod_le _ _).trans hl
    exact ⟨hq, hn, rfl, hlen⟩

/-- Every transition of R138 keeps the invariants. -/
theorem Move.inv (hm : Move p inp u t) (h : u.Inv) : t.Inv := by
  obtain ⟨hq, hp⟩ := inv_iff.1 h
  have poll (hc : u.st = .transmit ∨ (u.st = .filterSet ∧ u.rqMode = .passiveListen)) : u.PollInv := by
    obtain hst | ⟨hst, _⟩ := hc <;> rw [hst] at hp <;> exact hp
  refine inv_iff.2 ?_
  cases hm with
  | beginWaits _ _ => exact ⟨hq, hp⟩
  | beginCompletes _ _ _ => exact ⟨hq, fun _ => rfl, nofun⟩
  | beginFails hst _ _ =>
    rw [hst] at hp
    obtain ⟨hn, hempty⟩ := hp
    exact ⟨hq, fun hi => absurd (hn.symm.trans hi) nofun, fun _ => hempty⟩
  | query hst _ => rw [hst] at hp; exact ⟨hq, hp⟩
  | noError hc _ => exact ⟨hq, poll hc⟩
  | busError hc _ => exact ⟨hq, poll hc, rfl, rfl⟩
  | frame f q v hst hr _ =>
    rw [hst] at hp
    obtain ⟨hshort, hbound⟩ := hq
    rw [hr] at hshort hbound
    exact ⟨⟨fun g hg => hshort g (.tail f hg), (Nat.le_succ _).trans hbound⟩, hp, rfl⟩
  | deadline hst _ _ => rw [hst] at hp; exact ⟨hq, hp, rfl, rfl⟩
  | keepWaiting _ _ _ => exact ⟨hq, hp⟩
  | restore hc =>
    obtain hst | hst | hst := hc <;> rw [hst] at hp <;> obtain ⟨⟨hn, _⟩, hprep⟩ := hp
    · exact ⟨hq, ⟨hn, rfl⟩, .inl hprep⟩
    · exact ⟨hq, ⟨hn, rfl⟩, .inr (.inl hprep)⟩
    · exact ⟨hq, ⟨hn, rfl⟩, .inr (.inr hprep)⟩
  | answer hst =>
    rw [hst] at hp
    obtain ⟨⟨hn, htab⟩, _⟩ := hp
    exact ⟨hq, fun _ => htab, fun hi => absurd (hn.symm.trans hi) nofun⟩

/-- Settles O53: reset, arrival, acceptance and transition each keep the invariants. -/
theorem stepKeepsInvariants : Obligations.StepKeepsInvariants := by
  intro s t hInv h
  have hu : s.takeEvent.2.Inv := hInv.takeEvent
  have hst : s.takeEvent.2.st = s.st := takeEvent_snd_st s
  obtain ⟨_, rfl⟩ | ⟨f, _, ha⟩ | ⟨inp, _, hcase⟩ := step_cases h
  · exact inv_resetBlock _
  · exact hu.arrive ha
  · obtain ⟨_, _, rfl⟩ | ⟨w, i, hs, _, _, ha⟩ | ⟨w, e, _, _, _, rfl⟩ | ⟨_, hm⟩ := hcase
    · exact hu
    · exact ha.inv (hst.trans hs) hu
    · exact hu.raise _
    · exact hm.inv hu

/-- Settles O52: the state after reset is what a reset makes of it. -/
theorem resetMeetsInvariants : Obligations.ResetMeetsInvariants := inv_resetBlock State.reset

/-! ## Registers that are dead in a phase -/

/-- Answers that nothing read later can tell apart go on together or are refused alike. -/
theorem SameLiveResult.cases {a b : Result} (h : SameLiveResult a b) :
    (∃ u v, a = .next u ∧ b = .next v ∧ SameLive u v) ∨ ∃ r, a = .refused r ∧ b = .refused r := by
  cases a with
  | next u =>
    cases b with
    | next v => exact .inl ⟨u, v, rfl, rfl, h⟩
    | fault q => cases q
    | refused q => exact h.elim
  | fault q => cases q
  | refused r =>
    cases b with
    | refused q => cases (h : r = q); exact .inr ⟨r, rfl, rfl⟩
    | fault q => cases q
    | next v => exact h.elim

theorem SameLive.refl (s : State) : SameLive s s := by constructor <;> simp

theorem SameLive.emit (h : SameLive s t) (e : OutEvent) : SameLive (s.emit e) (t.emit e) :=
  { h with outs := congrArg (· ++ [e]) h.outs }

theorem SameLive.respond (h : SameLive s t) (status : Status) (value : Value) :
    SameLive (s.respond status value) (t.respond status value) := h.emit _

theorem SameLive.raise (h : SameLive s t) (status : Status) : SameLive (s.raise status) (t.raise status) := h.emit _

/-- What must agree for two states to agree in the phase they go to. -/
theorem SameLive.goto (h : SameLive s t) (ph : Phase)
    (config : s.inited = true ∨ ph ≠ .idle → s.nodeId = t.nodeId ∧ s.timeout = t.timeout)
    (request : ph = .filterSet → s.rqMode = t.rqMode ∧ s.rqHdr = t.rqHdr ∧ s.rqKind = t.rqKind ∧ s.rqLen = t.rqLen ∧
      s.rqData = t.rqData := by nofun)
    (start : ph = .wait → s.t0 = t.t0 := by nofun)
    (answer : ph.prepared = true → s.outStatus = t.outStatus ∧ s.outValue = t.outValue := by nofun) :
    SameLive (s.goto ph) (t.goto ph) :=
  { h with
    st := rfl
    config := config
    mode := fun hph => (request hph).1
    query := fun hph _ => (request hph).2
    start := start
    answer := answer }

/-- Outside IDLE the configuration is live. -/
theorem SameLive.config_of_busy (h : SameLive s t) (hs : s.st ≠ .idle) :
    s.nodeId = t.nodeId ∧ s.timeout = t.timeout := h.config (.inr hs)

theorem SameLive.whenIdle {a b : Result} (h : SameLive s t) (hab : s.st = .idle → SameLiveResult a b) :
    SameLiveResult (whenIdle s a) (whenIdle t b) := by
  by_cases hs : s.st = .idle
  · rw [whenIdle_idle a hs, whenIdle_idle b (h.st.symm.trans hs)]
    exact hab hs
  · rw [whenIdle_busy a hs, whenIdle_busy b (h.st ▸ hs)]
    exact h

/-- States that agree take the same event, and it finds states that agree. -/
theorem SameLive.takeEvent (h : SameLive s t) :
    s.takeEvent.1 = t.takeEvent.1 ∧ SameLive s.takeEvent.2 t.takeEvent.2 := by
  cases he : s.env with
  | nil =>
    rw [takeEvent_nil he, takeEvent_nil (h.env.symm.trans he), h.draws]
    exact ⟨rfl, { h with draws := rfl, outs := rfl }⟩
  | cons e rest =>
    rw [takeEvent_cons he, takeEvent_cons (h.env.symm.trans he)]
    exact ⟨rfl, { h with env := rfl, outs := rfl }⟩

/-- A reset keeps no register of the block (R240). -/
theorem SameLive.resetBlock (h : SameLive s t) : SameLive s.resetBlock t.resetBlock := by
  rw [State.resetBlock, State.resetBlock, h.env, h.draws]
  exact .refl _

/-- An arrival reads the table and the queue alone (R178, R179). -/
theorem SameLive.arrive (h : SameLive s t) (p : Params) (f : Frame) :
    SameLiveResult (s.arrive p f) (t.arrive p f) := by
  rw [State.arrive, State.arrive, ← h.ftab, ← h.rxq]
  split_ifs
  · exact { h with ftab := rfl, rxq := rfl }
  · exact h
  · rfl

/-! ### The acceptance of a command -/

/-- The configuration is written before it is live (R111). -/
theorem SameLive.execInit (h : SameLive s t) (debug : Bool) (node : CanId) (bitrate timeout : Word32) :
    SameLiveResult (execInit debug node bitrate timeout s) (execInit debug node bitrate timeout t) := by
  refine h.whenIdle fun _ => ?_
  rw [← h.inited]
  split_ifs
  · exact h.raise _
  · have hcfg : SameLive (s.configure debug node bitrate timeout) (t.configure debug node bitrate timeout) :=
      { h with config := fun _ => ⟨rfl, rfl⟩ }
    exact (hcfg.emit _).goto .begin fun _ => ⟨rfl, rfl⟩

/-- The request latch is written before it is live (R123). -/
theorem SameLive.acceptPoll (h : SameLive s t) (mode : Mode) (kind : Kind) (len : BitVec 8) (hdr filt : CanId)
    (payload : Value) :
    SameLiveResult (acceptPoll mode kind len hdr filt payload s) (acceptPoll mode kind len hdr filt payload t) := by
  refine h.whenIdle fun _ => ?_
  rw [← h.inited, afterFilter_setFilter, afterFilter_setFilter]
  split_ifs with hn
  · have htab : SameLive { s.latch mode kind len hdr filt payload with ftab := [⟨filt, MASK_EXACT⟩] }
        { t.latch mode kind len hdr filt payload with ftab := [⟨filt, MASK_EXACT⟩] } :=
      { h with ftab := rfl, mode := fun _ => rfl, query := fun _ _ => ⟨rfl, rfl, rfl, rfl⟩ }
    exact htab.goto .filterSet (fun _ => h.config (.inl hn)) fun _ => ⟨rfl, rfl, rfl, rfl, rfl⟩
  · exact h.raise _
  · exact h.raise _

theorem SameLive.execSetTimeout (h : SameLive s t) (timeout : Word32) :
    SameLiveResult (execSetTimeout timeout s) (execSetTimeout timeout t) := by
  refine h.whenIdle fun _ => ?_
  by_cases hn : s.inited = true
  · have hset : SameLive { s with timeout := timeout } { t with timeout := timeout } :=
      { h with config := fun hc => ⟨(h.config hc).1, rfl⟩ }
    rw [if_pos hn, if_pos (h.inited ▸ hn)]
    exact hset.respond _ _
  · rw [if_neg hn, if_neg (h.inited ▸ hn)]
    exact h.raise _

theorem SameLive.execDecode (h : SameLive s t) (len : BitVec 8) (operand : Value) :
    SameLiveResult (execDecode len operand s) (execDecode len operand t) := by
  refine h.whenIdle fun _ => ?_
  cases decodeBytes (bytes operand) len.toNat with
  | some value => exact h.respond _ _
  | none => exact h.raise _

theorem SameLive.exec (h : SameLive s t) (i : Instr) : SameLiveResult (exec i s) (exec i t) := by
  cases i with
  | init debug node bitrate timeout => exact h.execInit debug node bitrate timeout
  | poll mode kind len hdr filt payload => exact h.acceptPoll mode kind len hdr filt payload
  | pollh mode kind len hdr payload => exact h.acceptPoll mode kind len hdr hdr payload
  | setTimeout timeout => exact h.execSetTimeout timeout
  | decode len operand => exact h.execDecode len operand

theorem SameLive.acceptWord (h : SameLive s t) (w : CmdWord) :
    SameLiveResult (acceptWord Machine.exec w s) (acceptWord Machine.exec w t) := by
  unfold Machine.acceptWord
  cases decode w with
  | ok i => exact h.exec i
  | error _ => exact h.whenIdle fun _ => h.raise _

/-! ### The transitions -/

/-- The default entry is live where it is installed again (R113, R131). -/
theorem SameLive.installDefault (h : SameLive s t) (hs : s.st ≠ .idle) :
    SameLive { s with ftab := [⟨s.nodeId, MASK_EXACT⟩] } { t with ftab := [⟨t.nodeId, MASK_EXACT⟩] } :=
  { h with ftab := by rw [(h.config_of_busy hs).1] }

theorem SameLive.stepBegin (h : SameLive s t) (hs : s.st ≠ .idle) (p : Params) (inp : Inputs) :
    SameLiveResult (stepBegin p inp s) (stepBegin p inp t) := by
  have hcfg := h.config_of_busy hs
  simp only [Machine.stepBegin, State.setFilterDefault, afterFilter_setFilter]
  split_ifs
  · have hdone : SameLive { s with ftab := [⟨s.nodeId, MASK_EXACT⟩], inited := true }
        { t with ftab := [⟨t.nodeId, MASK_EXACT⟩], inited := true } :=
      { h.installDefault hs with inited := rfl, config := fun _ => hcfg }
    exact (hdone.respond _ _).goto .idle fun _ => hcfg
  · exact (h.raise _).goto .idle fun _ => hcfg
  · exact h

/-- The error check reads `node_id`, which is live, and writes what it makes live: `t0` or the prepared response. -/
theorem SameLive.errorCheck (h : SameLive s t) (hs : s.st ≠ .idle) (p : Params) (inp : Inputs) :
    SameLiveResult (errorCheck p inp s) (errorCheck p inp t) := by
  have hcfg := h.config_of_busy hs
  have hdiag : s.diagFrame p = t.diagFrame p := by rw [State.diagFrame, State.diagFrame, hcfg.1]
  simp only [Machine.errorCheck, hdiag]
  split_ifs
  · have hprep : SameLive ((s.emit (.tx (t.diagFrame p))).prepareFailure .busError)
        ((t.emit (.tx (t.diagFrame p))).prepareFailure .busError) :=
      { h.emit _ with answer := fun _ => ⟨rfl, rfl⟩ }
    exact hprep.goto .errored (fun _ => hcfg) (answer := fun _ => ⟨rfl, rfl⟩)
  · have ht0 : SameLive { s with t0 := inp.now } { t with t0 := inp.now } := { h with start := fun _ => rfl }
    exact ht0.goto .wait (fun _ => hcfg) (start := fun _ => rfl)

/-- The request latch is live in FILTER_SET, and beyond its mode only where the query frame is built (R124). -/
theorem SameLive.stepFilterSet (h : SameLive s t) (hs : s.st = .filterSet) (p : Params) (inp : Inputs) :
    SameLiveResult (stepFilterSet p inp s) (stepFilterSet p inp t) := by
  have hbusy : s.st ≠ .idle := by simp [hs]
  rw [Machine.stepFilterSet, Machine.stepFilterSet, ← h.mode hs]
  cases hm : s.rqMode with
  | queryResponse =>
    obtain ⟨hhdr, hkind, hlen, hdata⟩ := h.query hs hm
    have hquery : s.queryFrame = t.queryFrame := by
      rw [State.queryFrame, State.queryFrame, hhdr, hkind, hlen, hdata]
    rw [hquery]
    exact (h.emit _).goto .transmit fun _ => h.config_of_busy hbusy
  | passiveListen => exact h.errorCheck hbusy p inp

/-- WAIT reads the queue, `t0` and `timeout` (R128, R129). -/
theorem SameLive.stepWait (h : SameLive s t) (hs : s.st = .wait) (inp : Inputs) :
    SameLiveResult (stepWait inp s) (stepWait inp t) := by
  have hcfg := h.config_of_busy (by simp [hs])
  cases hq : s.rxq with
  | nil =>
    simp only [Machine.stepWait, pop_nil hq, pop_nil (h.rxq.symm.trans hq), ← h.start hs, ← hcfg.2]
    split_ifs
    · have hprep : SameLive (s.prepareFailure .timedOut) (t.prepareFailure .timedOut) :=
        { h with answer := fun _ => ⟨rfl, rfl⟩ }
      exact hprep.goto .timedOut (fun _ => hcfg) (answer := fun _ => ⟨rfl, rfl⟩)
    · exact h
  | cons f q =>
    simp only [Machine.stepWait, pop_cons hq, pop_cons (h.rxq.symm.trans hq)]
    cases decodeBytes f.data f.len.toNat with
    | none => rfl
    | some value =>
      have hprep : SameLive (({ s with rxq := q } : State).prepare .ok value)
          (({ t with rxq := q } : State).prepare .ok value) :=
        { h with rxq := rfl, answer := fun _ => ⟨rfl, rfl⟩ }
      exact hprep.goto .matched (fun _ => hcfg) (answer := fun _ => ⟨rfl, rfl⟩)

/-- The prepared response stays live until it is emitted (R131, R134). -/
theorem SameLive.stepRestore (h : SameLive s t) (hs : s.st.prepared = true) (hbusy : s.st ≠ .idle) (p : Params) :
    SameLiveResult (stepRestore p s) (stepRestore p t) :=
  (h.installDefault hbusy).goto .filterRestored (fun _ => h.config_of_busy hbusy) (answer := fun _ => h.answer hs)

theorem SameLive.stepRespond (h : SameLive s t) (hs : s.st = .filterRestored) :
    SameLiveResult (stepRespond s) (stepRespond t) := by
  obtain ⟨hstatus, hvalue⟩ := h.answer (by rw [hs]; rfl)
  rw [Machine.stepRespond, Machine.stepRespond, hstatus, hvalue]
  exact (h.respond _ _).goto .idle fun _ => h.config_of_busy (by simp [hs])

theorem SameLive.advance (h : SameLive s t) (p : Params) (inp : Inputs) :
    SameLiveResult (advance p inp s) (advance p inp t) := by
  rw [Machine.advance, Machine.advance, ← h.st]
  cases hst : s.st with
  | idle => exact h
  | begin => exact h.stepBegin (by simp [hst]) p inp
  | filterSet => exact h.stepFilterSet hst p inp
  | transmit => exact h.errorCheck (by simp [hst]) p inp
  | wait => exact h.stepWait hst inp
  | matched | timedOut | errored => exact h.stepRestore (by rw [hst]; rfl) (by simp [hst]) p
  | filterRestored => exact h.stepRespond hst

theorem SameLive.sequencerStep (h : SameLive s t) (p : Params) (inp : Inputs) :
    SameLiveResult (sequencerStep p Machine.exec inp s) (sequencerStep p Machine.exec inp t) := by
  rw [Machine.sequencerStep, Machine.sequencerStep, ← h.st]
  split_ifs
  · cases inp.cmd with
    | some w => exact h.acceptWord w
    | none => exact h
  · exact h.advance p inp

theorem SameLive.runEvent (h : SameLive s t) (p : Params) (e : Event) :
    SameLiveResult (runEvent p Machine.exec e s) (runEvent p Machine.exec e t) := by
  cases e with
  | reset => exact h.resetBlock
  | arrive f => exact h.arrive p f
  | step inp => exact h.sequencerStep p inp

theorem SameLive.step (h : SameLive s t) : SameLiveResult (step s) (step t) := by
  obtain ⟨hevent, hfound⟩ := h.takeEvent
  rw [Machine.step, Machine.step, ← hevent]
  exact hfound.runEvent Config.params _

/-- Settles O57: the same event finds states that agree, and each kind of event keeps the agreement. -/
theorem deadRegistersDoNotShow : Obligations.DeadRegistersDoNotShow := fun _ _ => SameLive.step

/-- States that agree show the same output events for ever. -/
theorem SameLive.trace (h : SameLive s t) (n : Nat) : trace n s = trace n t := by
  induction n generalizing s t with
  | zero => rfl
  | succ n ih =>
    have hstep := h.step
    rw [Machine.trace, Machine.trace]
    obtain ⟨u, v, hs, ht, huv⟩ | ⟨r, hs, ht⟩ := hstep.cases
    · simp only [hs, ht, huv.outs, ih huv]
    · simp only [hs, ht]

/-- An unconstructed idle block reads none of the registers that reset leaves unspecified. -/
theorem sameLive_of_unconstructed (hs : s.st = .idle) (ht : t.st = .idle) (hsi : s.inited = false)
    (hti : t.inited = false) (hftab : s.ftab = t.ftab) (hrxq : s.rxq = t.rxq) (houts : s.outs = t.outs)
    (henv : s.env = t.env) (hdraws : s.draws = t.draws) : SameLive s t where
  st := hs.trans ht.symm
  inited := hsi.trans hti.symm
  ftab := hftab
  rxq := hrxq
  env := henv
  draws := hdraws
  outs := houts
  config := by simp [hs, hsi]
  mode := by simp [hs]
  query := by simp [hs]
  start := by simp [hs]
  answer := by simp [hs, Phase.prepared]

/-- Settles O58: the two states agree on every live register, and so do all states after them. -/
theorem unspecifiedResetRegistersNeverShow : Obligations.UnspecifiedResetRegistersNeverShow := by
  intro n s t hs hsi hsf hsq hso ht hti htf htq hto henv hdraws
  exact (sameLive_of_unconstructed hs ht hsi hti (hsf.trans htf.symm) (hsq.trans htq.symm) (hso.trans hto.symm) henv
    hdraws).trace n

/-! ## The receive queue -/

theorem Accepted.rxq_eq {i : Instr} (h : Accepted u i t) : t.rxq = u.rxq := by cases h <;> rfl

/-- The pop of WAIT is the one transition that changes the queue (R128). -/
theorem Move.rxq_cases (h : Move p inp u t) :
    t.rxq = u.rxq ∨ (u.st = .wait ∧ t.st = .matched ∧ ∃ f, u.rxq = f :: t.rxq) := by
  cases h
  case frame f q v hst hq _ => exact .inr ⟨hst, rfl, f, hq⟩
  all_goals exact .inl rfl

/-- Settles O42, by the event the step takes. -/
theorem queueChangesOnlyByArrivalPopReset : Obligations.QueueChangesOnlyByArrivalPopReset := by
  intro s t h
  have hst : s.takeEvent.2.st = s.st := takeEvent_snd_st s
  have hrxq : s.takeEvent.2.rxq = s.rxq := takeEvent_snd_rxq s
  obtain ⟨he, rfl⟩ | ⟨f, he, ha⟩ | ⟨inp, he, hcase⟩ := step_cases h
  · exact .inr (.inr (.inr ⟨he, rfl⟩))
  · obtain ⟨_, ⟨hacc, hroom, rfl⟩ | ⟨_, rfl⟩⟩ := arrive_cases ha
    · rw [takeEvent_snd_ftab] at hacc
      rw [hrxq] at hroom ⊢
      exact .inr (.inl ⟨f, he, hacc, hroom, rfl⟩)
    · exact .inl hrxq
  · obtain ⟨_, _, rfl⟩ | ⟨w, i, _, _, _, ha⟩ | ⟨w, e, _, _, _, rfl⟩ | ⟨_, hm⟩ := hcase
    · exact .inl hrxq
    · exact .inl (ha.rxq_eq.trans hrxq)
    · exact .inl hrxq
    · obtain hsame | ⟨hw, hmatched, f, hpop⟩ := hm.rxq_cases
      · exact .inl (hsame.trans hrxq)
      · exact .inr (.inr (.inl ⟨inp, f, he, hst.symm.trans hw, hmatched, hrxq.symm.trans hpop⟩))

/-! ## The filter table -/

/-- Of the answers in IDLE only the acceptance of a poll changes the table (R123). -/
theorem Accepted.ftab_cases {i : Instr} (h : Accepted u i t) :
    t.ftab = u.ftab ∨ (u.inited = true ∧ t.st = .filterSet ∧ t.ftab = [t.pollEntry]) := by
  cases h
  case request hn _ _ => exact .inr ⟨hn, rfl, rfl⟩
  all_goals exact .inl rfl

/-- The transitions that change the table install the default entry (R113, R131). -/
theorem Move.ftab_cases (h : Move p inp u t) :
    t.ftab = u.ftab ∨ (u.st = .begin ∧ t.st = .idle ∧ t.inited = true ∧ t.ftab = [t.defaultEntry]) ∨
    ((u.st = .matched ∨ u.st = .timedOut ∨ u.st = .errored) ∧ t.st = .filterRestored ∧ t.ftab = [t.defaultEntry]) := by
  cases h
  case beginCompletes hst _ _ => exact .inr (.inl ⟨hst, rfl, rfl, rfl⟩)
  case restore hst => exact .inr (.inr ⟨hst, rfl, rfl⟩)
  all_goals exact .inl rfl

theorem arrive_ftab {f : Frame} (h : u.arrive p f = .next t) : t.ftab = u.ftab := by
  obtain ⟨_, ⟨_, _, rfl⟩ | ⟨_, rfl⟩⟩ := arrive_cases h <;> rfl

/-- Settles O43, by the event the step takes. -/
theorem filterChangesOnlyByReplacement : Obligations.FilterChangesOnlyByReplacement := by
  intro s t h
  have hst : s.takeEvent.2.st = s.st := takeEvent_snd_st s
  have hftab : s.takeEvent.2.ftab = s.ftab := takeEvent_snd_ftab s
  obtain ⟨he, rfl⟩ | ⟨f, _, ha⟩ | ⟨inp, _, hcase⟩ := step_cases h
  · exact .inr (.inr (.inr (.inr ⟨he, rfl⟩)))
  · exact .inl ((arrive_ftab ha).trans hftab)
  · obtain ⟨_, _, rfl⟩ | ⟨w, i, hs, _, _, ha⟩ | ⟨w, e, _, _, _, rfl⟩ | ⟨_, hm⟩ := hcase
    · exact .inl hftab
    · obtain hsame | ⟨hn, hpoll⟩ := ha.ftab_cases
      · exact .inl (hsame.trans hftab)
      · exact .inr (.inl ⟨hs, takeEvent_snd_inited s ▸ hn, hpoll⟩)
    · exact .inl hftab
    · have hcases := hm.ftab_cases
      rw [hst, hftab] at hcases
      obtain hsame | hbegun | hrestored := hcases
      · exact .inl hsame
      · exact .inr (.inr (.inl hbegun))
      · exact .inr (.inr (.inr (.inl hrestored)))

/-! ## The configuration -/

/-- The same configuration, and constructed. -/
def SameConfig (s t : State) : Prop :=
  t.nodeId = s.nodeId ∧ t.cfgBitrate = s.cfgBitrate ∧ t.cfgDebug = s.cfgDebug ∧ t.inited = true

theorem sameConfig_takeEvent (hn : s.inited = true) : SameConfig s s.takeEvent.2 := by
  rw [takeEvent_frame]
  exact ⟨rfl, rfl, rfl, hn⟩

theorem arrive_sameConfig {f : Frame} (hu : SameConfig s u) (h : u.arrive p f = .next t) : SameConfig s t := by
  obtain ⟨_, ⟨_, _, rfl⟩ | ⟨_, rfl⟩⟩ := arrive_cases h <;> exact hu

/-- INIT is the one command that writes the configuration, and a constructed block refuses it (R111, R115). -/
theorem Accepted.sameConfig {i : Instr} (hu : SameConfig s u) (h : Accepted u i t) : SameConfig s t := by
  obtain ⟨hnode, hrate, hdebug, hn⟩ := hu
  cases h
  case construction hun => exact absurd (hun.symm.trans hn) nofun
  all_goals exact ⟨hnode, hrate, hdebug, hn⟩

/-- No transition writes the configuration, and none but a completed construction writes `inited` (R25). -/
theorem Move.sameConfig (hu : SameConfig s u) (h : Move p inp u t) : SameConfig s t := by
  obtain ⟨hnode, hrate, hdebug, hn⟩ := hu
  cases h
  case beginCompletes => exact ⟨hnode, hrate, hdebug, rfl⟩
  all_goals exact ⟨hnode, hrate, hdebug, hn⟩

/-- Settles O48, by the event the step takes. -/
theorem configurationIsImmutable : Obligations.ConfigurationIsImmutable := by
  intro s t hn hr h
  have hu : SameConfig s s.takeEvent.2 := sameConfig_takeEvent hn
  obtain ⟨he, _⟩ | ⟨f, _, ha⟩ | ⟨inp, _, hcase⟩ := step_cases h
  · exact absurd he hr
  · exact arrive_sameConfig hu ha
  · obtain ⟨_, _, rfl⟩ | ⟨w, i, _, _, _, ha⟩ | ⟨w, e, _, _, _, rfl⟩ | ⟨_, hm⟩ := hcase
    · exact hu
    · exact ha.sameConfig hu
    · exact hu
    · exact hm.sameConfig hu

/-! ## The timeout -/

theorem arrive_timeout {f : Frame} (h : u.arrive p f = .next t) : t.timeout = u.timeout := by
  obtain ⟨_, ⟨_, _, rfl⟩ | ⟨_, rfl⟩⟩ := arrive_cases h <;> rfl

theorem Move.timeout_eq (h : Move p inp u t) : t.timeout = u.timeout := by cases h <;> rfl

/-- INIT and SET_TIMEOUT write `timeout`, each with its operand (R111, R150). -/
theorem Accepted.timeout_cases {i : Instr} (h : Accepted u i t) :
    t.timeout = u.timeout ∨ i = .setTimeout t.timeout ∨ ∃ debug node bitrate, i = .init debug node bitrate t.timeout := by
  cases h
  case construction debug node bitrate _ _ => exact .inr (.inr ⟨debug, node, bitrate, rfl⟩)
  case timeout => exact .inr (.inl rfl)
  all_goals exact .inl rfl

/-- Settles O49, by the event the step takes. -/
theorem timeoutChangesOnlyByItsCommands : Obligations.TimeoutChangesOnlyByItsCommands := by
  intro s t hr h
  have htimeout : s.takeEvent.2.timeout = s.timeout := takeEvent_snd_timeout s
  obtain ⟨he, _⟩ | ⟨f, _, ha⟩ | ⟨inp, he, hcase⟩ := step_cases h
  · exact absurd he hr
  · exact .inl ((arrive_timeout ha).trans htimeout)
  · obtain ⟨_, _, rfl⟩ | ⟨w, i, hs, hc, hd, ha⟩ | ⟨w, e, _, _, _, rfl⟩ | ⟨_, hm⟩ := hcase
    · exact .inl htimeout
    · obtain hsame | rfl | ⟨debug, node, bitrate, rfl⟩ := ha.timeout_cases
      · exact .inl (hsame.trans htimeout)
      · exact .inr ⟨hs, inp, w, he, hc, .inl hd⟩
      · exact .inr ⟨hs, inp, w, he, hc, .inr ⟨debug, node, bitrate, hd⟩⟩
    · exact .inl htimeout
    · exact .inl (hm.timeout_eq.trans htimeout)

/-! ## Responses -/

theorem acceptsNext_eq_false_of_busy (h : s.busy = true) : s.acceptsNext = false := by
  have hready : s.cmdReady = false := by simpa [State.busy, State.cmdReady] using h
  unfold State.acceptsNext
  cases s.takeEvent.1 <;> simp [hready]

/-- A step that answers a command ends it: at most one command is accepted or in progress (R10, R91). -/
theorem idle_of_response (hr : s.takeEvent.1 ≠ .reset) (h : step s = .next t) (hpos : 0 < t.responses) :
    t.st = .idle := by
  have hbalance := step_balance hr h
  have hone : s.acceptsNext.toNat + s.busy.toNat ≤ 1 := by
    cases hb : s.busy with
    | false => simpa using Bool.toNat_le s.acceptsNext
    | true => simp [acceptsNext_eq_false_of_busy hb]
  by_contra hst
  rw [busy_of_not_idle hst, Bool.toNat_true] at hbalance
  omega

/-- A reset event answers the state found, reset (R240). -/
theorem step_eq_resetBlock (he : s.takeEvent = (.reset, u)) : step s = .next u.resetBlock := step_of_takeEvent he

theorem responses_resetBlock (s : State) : s.resetBlock.responses = 0 := rfl

/-- In an idle state that meets the invariants the table is the one R135 names (I-a, I-b). -/
theorem State.Inv.ftab_of_idle (h : t.Inv) (hst : t.st = .idle) :
    t.ftab = if t.inited then [t.defaultEntry] else [] := by
  cases hn : t.inited with
  | true => exact h.idleDefault hst hn
  | false => exact (h.unconstructed hn).1

/-- Settles O55: a step that answers ends in IDLE, where the invariants fix the table. -/
theorem responseFindsDefaultFilter : Obligations.ResponseFindsDefaultFilter := by
  intro s t hInv h hpos
  have hr : s.takeEvent.1 ≠ .reset := by
    intro he
    cases (step_eq_resetBlock (Prod.ext he rfl)).symm.trans h
    exact absurd hpos (by simp [responses_resetBlock])
  have hst : t.st = .idle := idle_of_response hr h hpos
  exact ⟨hst, (stepKeepsInvariants s t hInv h).ftab_of_idle hst⟩

/-! ## Codes, readiness, reset -/

theorem Status.code_injective {a b : Status} : a.code = b.code → a = b := by
  cases a <;> cases b <;> decide

theorem Status.code_ne_seven (a : Status) : a.code ≠ 7#3 := by cases a <;> decide

theorem Phase.code_injective {a b : Phase} : a.code = b.code → a = b := by
  cases a <;> cases b <;> decide

theorem Phase.code_le (a : Phase) : a.code.toNat ≤ 8 := by cases a <;> decide

theorem cmdReady_iff (s : State) : s.cmdReady = true ↔ s.st = .idle := beq_iff_eq

theorem busy_iff (s : State) : s.busy = true ↔ s.st ≠ .idle := bne_iff_ne

/-- Settles O11: the codes one by one, and the two ports by the definition of `st`. -/
theorem statusCodesAndReadiness : Obligations.StatusCodesAndReadiness :=
  ⟨fun _ _ => Status.code_injective, Status.code_ne_seven, rfl, rfl, rfl, rfl, rfl, rfl, rfl,
    fun _ _ => Phase.code_injective, Phase.code_le, fun s => ⟨cmdReady_iff s, busy_iff s⟩⟩

/-- Settles O51: every field named is that of `State.reset`, or of what the outside does next. -/
theorem resetDropsEverything : Obligations.ResetDropsEverything :=
  ⟨⟨rfl, rfl, rfl, rfl, rfl, rfl⟩,
    fun _ u he => ⟨u.resetBlock, step_eq_resetBlock he, rfl, rfl, rfl, rfl, rfl, rfl, rfl⟩⟩

end Sys2Proof.Machine
end

section
/-! SUPPORT. Bytes and ports (spec/20_memory.md): the byte lanes of a 64-bit carrier (R52, R54), which input ports a step samples
(R63), and what the output and arrival ports show (R65, R190). -/

namespace Sys2Proof.Machine

variable {p : Params} {inp a b : Inputs} {s t u : State}

/-! ## Byte lanes -/

/-- Reading an array of `bytes` is reading a lane of the value (R52). -/
theorem byteAt_bytes (v : Value) {i : Nat} (hi : i < 8) : byteAt (bytes v) i = laneByte v i := by
  interval_cases i <;> rfl

/-- Lane `i` of a carrier is byte `i` of its array (R52). -/
theorem laneByte_carrier (b : Bytes) {i : Nat} (hi : i < 8) : laneByte (carrier b) i = byteAt b i := by
  apply BitVec.eq_of_getLsbD_eq
  intro k hk
  simp only [laneByte, carrier, BitVec.getLsbD_extractLsb', hk, decide_true, Bool.true_and]
  interval_cases i <;> simp (disch := omega) only [BitVec.getLsbD_append, if_neg, if_pos] <;>
    exact congrArg (BitVec.getLsbD _) (by omega)

/-- Bit `j` of a value is bit `j mod 8` of lane `j / 8`. -/
theorem getLsbD_eq_laneByte (v : Value) (j : Nat) : v.getLsbD j = (laneByte v (j / 8)).getLsbD (j % 8) := by
  have hk : j % 8 < 8 := Nat.mod_lt j (by decide)
  rw [laneByte, BitVec.getLsbD_extractLsb', decide_eq_true hk, Bool.true_and, Nat.div_add_mod]

theorem eq_of_laneByte_eq {v w : Value} (h : ∀ i, i < 8 → laneByte v i = laneByte w i) : v = w := by
  apply BitVec.eq_of_getLsbD_eq
  intro j hj
  rw [getLsbD_eq_laneByte v, getLsbD_eq_laneByte w, h (j / 8) (by omega)]

theorem eq_of_byteAt_eq {b c : Bytes} (h : ∀ i, i < 8 → byteAt b i = byteAt c i) : b = c := by
  apply Vector.ext
  intro i hi
  simpa [byteAt, hi] using h i hi

@[simp] theorem carrier_bytes (v : Value) : carrier (bytes v) = v :=
  eq_of_laneByte_eq fun _ hi => (laneByte_carrier _ hi).trans (byteAt_bytes v hi)

@[simp] theorem bytes_carrier (b : Bytes) : bytes (carrier b) = b :=
  eq_of_byteAt_eq fun _ hi => (byteAt_bytes _ hi).trans (laneByte_carrier b hi)

/-- Settles O38: arrays and carriers agree when they agree lane by lane. -/
theorem byteLanesAreInverse : Obligations.ByteLanesAreInverse :=
  ⟨carrier_bytes, bytes_carrier, fun v _ => byteAt_bytes v⟩

theorem getLsbD_ofNat_two_pow_sub_one (n : Nat) {j : Nat} (hj : j < 64) :
    (BitVec.ofNat 64 (2 ^ n - 1)).getLsbD j = decide (j < n) := by
  rw [BitVec.getLsbD_ofNat, Nat.testBit_two_pow_sub_one, decide_eq_true hj, Bool.true_and]

/-- Masking a value with its low `n` bytes keeps the lanes below `n` and clears the others. -/
theorem laneByte_and_mask (v : Value) (n : Nat) {i : Nat} (hi : i < 8) :
    laneByte (v &&& BitVec.ofNat 64 (2 ^ (8 * n) - 1)) i = if i < n then laneByte v i else 0#8 := by
  apply BitVec.eq_of_getLsbD_eq
  intro k hk
  have hmask : (BitVec.ofNat 64 (2 ^ (8 * n) - 1)).getLsbD (8 * i + k) = decide (i < n) := by
    rw [getLsbD_ofNat_two_pow_sub_one _ (by omega), decide_eq_decide]
    omega
  simp only [laneByte, BitVec.getLsbD_extractLsb', BitVec.getLsbD_and, hmask]
  by_cases hn : i < n <;> simp [hn]

/-- The first `n` bytes of an array, as a masked carrier (R52, R54). -/
theorem carrier_firstBytes (v : Value) (n : Nat) :
    carrier (firstBytes (bytes v) n) = v &&& BitVec.ofNat 64 (2 ^ (8 * n) - 1) := by
  refine eq_of_laneByte_eq fun i hi => ?_
  rw [laneByte_carrier _ hi, byteAt_firstBytes _ _ _ hi, byteAt_bytes v hi, laneByte_and_mask v n hi]

/-! ## Sampled inputs -/

/-- A step event outside IDLE is a transition of `st`, whatever is presented (R91). -/
theorem step_eq_advance (he : s.takeEvent = (.step inp, u)) (hs : u.st ≠ .idle) :
    step s = advance Config.params inp u := (step_of_takeEvent he).trans (if_neg hs)

/-- Putting a sequencer step in front of the events runs it from the state found there. -/
theorem step_listed (s : State) (inp : Inputs) (rest : List Event) :
    step { s with env := .step inp :: rest } = sequencerStep Config.params exec inp (s.after rest) := rfl

/-- BEGIN samples `begin_done`, and `begin_ok` with it (R191). -/
theorem stepBegin_congr (hdone : a.beginDone = b.beginDone) (hok : a.beginDone = true → a.beginOk = b.beginOk) :
    stepBegin p a u = stepBegin p b u := by
  unfold stepBegin
  rw [← hdone]
  cases hd : a.beginDone with
  | false => rfl
  | true => rw [hok hd]

/-- The error check samples `err_status`, and `now` where there is no error (R126, R194, R195). -/
theorem errorCheck_congr (herr : a.errStatus = b.errStatus) (hnow : a.errStatus = 0#8 → a.now = b.now) :
    errorCheck p a u = errorCheck p b u := by
  rw [errorCheck_eq, errorCheck_eq, ← herr]
  by_cases h0 : a.errStatus = 0#8
  · rw [hnow h0]
  · rw [if_neg h0, if_neg h0]

/-- WAIT samples `now` only with the queue empty (R128, R129, R195). -/
theorem stepWait_congr (hnow : u.rxq = [] → a.now = b.now) : stepWait a u = stepWait b u := by
  cases hq : u.rxq with
  | nil => simp only [stepWait, hnow hq]
  | cons f q => simp only [stepWait, pop_cons hq]

/-- A sequencer step samples the command port in IDLE, and outside it what its state's rule samples (R63, R138). -/
theorem sequencerStep_congr {run : Instr → State → Result} (hcmd : u.st = .idle → a.cmd = b.cmd)
    (hbegin : u.st = .begin → a.beginDone = b.beginDone ∧ (a.beginDone = true → a.beginOk = b.beginOk))
    (herr : u.st = .transmit ∨ (u.st = .filterSet ∧ u.rqMode = .passiveListen) →
      a.errStatus = b.errStatus ∧ (a.errStatus = 0#8 → a.now = b.now))
    (hwait : u.st = .wait → u.rxq = [] → a.now = b.now) :
    sequencerStep p run a u = sequencerStep p run b u := by
  cases hst : u.st <;> simp only [sequencerStep, advance, hst, reduceCtorEq, if_true, if_false]
  case idle => rw [hcmd hst]
  case begin => exact stepBegin_congr (hbegin hst).1 (hbegin hst).2
  case filterSet =>
    cases hm : u.rqMode with
    | queryResponse => simp only [stepFilterSet, hm]
    | passiveListen =>
      obtain ⟨hstatus, hnow⟩ := herr (.inr ⟨hst, hm⟩)
      simpa only [stepFilterSet, hm] using errorCheck_congr hstatus hnow
  case transmit => exact errorCheck_congr (herr (.inl hst)).1 (herr (.inl hst)).2
  case wait => exact stepWait_congr (hwait hst)

/-- Settles O10: taking the event off the list leaves `st`, the mode and the queue as they are. -/
theorem unsampledInputsDoNotMatter : Obligations.UnsampledInputsDoNotMatter := by
  intro s a b rest hcmd hbegin herr hwait
  rw [step_listed, step_listed]
  exact sequencerStep_congr hcmd hbegin herr hwait

theorem exec_busy (i : Instr) (h : s.st ≠ .idle) : exec i s = .next s := by
  cases i <;> exact whenIdle_busy _ h

/-- Settles O9: no rule outside IDLE samples the command port. -/
theorem busyBlockAcceptsNoCommand : Obligations.BusyBlockAcceptsNoCommand :=
  ⟨fun i _ h => exec_busy i h, fun s inp cmd rest h =>
    unsampledInputsDoNotMatter s { inp with cmd := cmd } inp rest (absurd · h) (fun _ => ⟨rfl, fun _ => rfl⟩)
      (fun _ => ⟨rfl, fun _ => rfl⟩) fun _ _ => rfl⟩

/-! ## Output ports -/

/-- The query step, with its output event (R124). -/
theorem step_query (he : s.takeEvent = (.step inp, u)) (hst : u.st = .filterSet) (hm : u.rqMode = .queryResponse) :
    step s = .next { u with st := .transmit, outs := u.outs ++ [.tx u.queryFrame] } := by
  have hquery : stepFilterSet Config.params inp u = .next ((u.emit (.tx u.queryFrame)).goto .transmit) := by
    rw [stepFilterSet, hm]
  rw [step_eq_advance he (by simp [hst])]
  simp only [advance, hst]
  exact hquery

theorem outs_of_takeEvent {e : Event} (he : s.takeEvent = (e, u)) : u.outs = [] := by
  simpa [he] using takeEvent_snd_outs s

theorem txPort_of_outs_tx {f : Frame} (h : t.outs = [.tx f]) :
    t.txPort = some (f.id, f.kind.bit, f.len, carrier f.data) := by
  rw [State.txPort, h]; rfl

/-- Settles O19: the one output event is the query frame, and its bytes are the masked payload. -/
theorem transmitPortMasksPayload : Obligations.TransmitPortMasksPayload := by
  intro s u t inp he hst hm _ hstep
  cases (step_query he hst hm).symm.trans hstep
  have houts : u.outs ++ [.tx u.queryFrame] = [.tx u.queryFrame] := by rw [outs_of_takeEvent he, List.nil_append]
  rw [txPort_of_outs_tx houts, ← carrier_firstBytes]
  rfl

/-- An accepted command causes at most one output event (R10, R111). -/
theorem Accepted.outs_length_le {i : Instr} (h : Accepted u i t) : t.outs.length ≤ u.outs.length + 1 := by
  cases h <;> simp

/-- A transition causes at most one output event (R138). -/
theorem Move.outs_length_le (h : Move p inp u t) : t.outs.length ≤ u.outs.length + 1 := by
  cases h <;> simp

theorem step_outs_length_le_one (h : step s = .next t) : t.outs.length ≤ 1 := by
  have h0 : s.takeEvent.2.outs.length = 0 := by simp
  obtain ⟨_, rfl⟩ | ⟨f, _, ha⟩ | ⟨inp, _, hcase⟩ := step_cases h
  · exact Nat.zero_le 1
  · rw [(arrive_st_outs ha).2, h0]
    exact Nat.zero_le 1
  · obtain ⟨_, _, rfl⟩ | ⟨w, i, _, _, _, ha⟩ | ⟨w, e, _, _, _, rfl⟩ | ⟨_, hm⟩ := hcase
    · rw [h0]; exact Nat.zero_le 1
    · simpa only [h0] using ha.outs_length_le
    · simp
    · simpa only [h0] using hm.outs_length_le

/-- In a list of at most one element, what is found is what its element gives: the reading of a port (R190). -/
theorem findSome?_eq_some_iff_of_length_le_one {α β : Type} {l : List α} (hl : l.length ≤ 1) (f : α → Option β) (y : β) :
    l.findSome? f = some y ↔ ∃ x ∈ l, f x = some y := by
  match l, hl with
  | [], _ => simp
  | [x], _ => cases hx : f x <;> simp [hx]

theorem OutEvent.rsp_eq_some_iff {e : OutEvent} {code : BitVec 3} {value : Value} :
    e.rsp = some (code, value) ↔ ∃ status : Status, code = status.code ∧ .respond status value = e := by
  cases e <;> simp [OutEvent.rsp, eq_comm]

theorem OutEvent.txPorts_eq_some_iff {e : OutEvent} {id : CanId} {kind : Bool} {len : BitVec 4} {data : Value} :
    e.txPorts = some (id, kind, len, data) ↔
      ∃ f : Frame, id = f.id ∧ kind = f.kind.bit ∧ len = f.len ∧ data = carrier f.data ∧ .tx f = e := by
  cases e <;> simp [OutEvent.txPorts, eq_comm]

theorem OutEvent.beginPorts_eq_some_iff {e : OutEvent} {rate : Word32} {loopback : Bool} :
    e.beginPorts = some (rate, loopback) ↔ .begin rate loopback = e := by
  cases e <;> simp [OutEvent.beginPorts, eq_comm]

section Ports

variable (h : t.outs.length ≤ 1)
include h

theorem rspPort_eq_some_iff (code : BitVec 3) (value : Value) :
    t.rspPort = some (code, value) ↔ ∃ status : Status, code = status.code ∧ .respond status value ∈ t.outs := by
  rw [State.rspPort, findSome?_eq_some_iff_of_length_le_one h]
  simp only [OutEvent.rsp_eq_some_iff]
  constructor
  · rintro ⟨_, hx, status, hcode, rfl⟩
    exact ⟨status, hcode, hx⟩
  · rintro ⟨status, hcode, hx⟩
    exact ⟨_, hx, status, hcode, rfl⟩

theorem txPort_eq_some_iff (id : CanId) (kind : Bool) (len : BitVec 4) (data : Value) :
    t.txPort = some (id, kind, len, data) ↔
      ∃ f : Frame, id = f.id ∧ kind = f.kind.bit ∧ len = f.len ∧ data = carrier f.data ∧ .tx f ∈ t.outs := by
  rw [State.txPort, findSome?_eq_some_iff_of_length_le_one h]
  simp only [OutEvent.txPorts_eq_some_iff]
  constructor
  · rintro ⟨_, hx, f, hid, hkind, hlen, hdata, rfl⟩
    exact ⟨f, hid, hkind, hlen, hdata, hx⟩
  · rintro ⟨f, hid, hkind, hlen, hdata, hx⟩
    exact ⟨_, hx, f, hid, hkind, hlen, hdata, rfl⟩

theorem beginPort_eq_some_iff (rate : Word32) (loopback : Bool) :
    t.beginPort = some (rate, loopback) ↔ .begin rate loopback ∈ t.outs := by
  rw [State.beginPort, findSome?_eq_some_iff_of_length_le_one h]
  simp only [OutEvent.beginPorts_eq_some_iff, exists_eq_right']

end Ports

/-! ## Arrival ports -/

@[simp] theorem frameOfPorts_ports (f : Frame) : frameOfPorts f.id f.kind.bit f.len (carrier f.data) = f := by
  simp [frameOfPorts]

/-- Settles O59: at most one event a step, so each port shows it or nothing; the arrival ports by the byte lanes. -/
theorem portsShowEventsAndFrames : Obligations.PortsShowEventsAndFrames := by
  refine ⟨fun s t h => ?_, fun id kind len data => ?_, frameOfPorts_ports⟩
  · have hone : t.outs.length ≤ 1 := step_outs_length_le_one h
    exact ⟨hone, rspPort_eq_some_iff hone, txPort_eq_some_iff hone, beginPort_eq_some_iff hone⟩
  · exact ⟨rfl, Kind.bit_ofBit kind, rfl, fun _ => byteAt_bytes data⟩

end Sys2Proof.Machine
end

section
/-! SUPPORT. Encoding (spec/30_encoding.md): what a row of the opcode map fixes of a word it selects (R83), the decoder said
once in terms of the rows, both round trips with the encoder, and the acceptance checks of R91 on a presented word. -/

namespace Sys2Proof

variable {w : CmdWord} {r : Row} {i : Instr}

/-! ## What a selected row fixes -/

/-- In a word the row selects, bits that the row's mask covers are the bits of its pattern (R83). -/
theorem Row.extractLsb'_of_selects {start len : Nat} (h : r.selects w = true)
    (hmask : r.mask.extractLsb' start len = BitVec.allOnes len) :
    w.extractLsb' start len = r.pattern.extractLsb' start len := by
  have hword : w &&& r.mask = r.pattern := eq_of_beq h
  rw [← hword, BitVec.extractLsb'_and, hmask, BitVec.and_allOnes]

/-- Every mask covers `OP` (R83). -/
theorem fieldOp_of_selects (hr : r ∈ opcodeMap) (h : r.selects w = true) : fieldOp w = fieldOp r.pattern :=
  Row.extractLsb'_of_selects h ((by decide : ∀ q ∈ opcodeMap, q.mask.extractLsb' 124 4 = BitVec.allOnes 4) r hr)

theorem fieldOp_pattern_bounds :
    ∀ r ∈ opcodeMap, 0 < (fieldOp r.pattern).toNat ∧ (fieldOp r.pattern).toNat ≤ 5 := by decide

/-- The rows have distinct opcodes, so no word selects two of them (R83). -/
theorem row_eq_of_selects {q : Row} (hr : r ∈ opcodeMap) (hq : q ∈ opcodeMap) (hrw : r.selects w = true)
    (hqw : q.selects w = true) : r = q := by
  have distinct : (opcodeMap.map fun r => fieldOp r.pattern).Nodup := by decide
  exact List.inj_on_of_nodup_map distinct hr hq ((fieldOp_of_selects hr hrw).symm.trans (fieldOp_of_selects hq hqw))

/-! ## The decoder, row by row -/

/-- What a word stands for by the row that selects it, with the operands of the row's format (R82 to R84). -/
inductive Decoded (w : CmdWord) : Instr → Prop where
  | init : rowInit.selects w = true → Decoded w (.init (fieldF1 w) (fieldIdA w) (fieldBitrate w) (fieldTimeout w))
  | poll : rowPoll.selects w = true →
      Decoded w (.poll (Mode.ofBit (fieldF1 w)) (Kind.ofBit (fieldF0 w)) (fieldLen w) (fieldIdA w) (fieldIdB w)
        (fieldData w))
  | pollh : rowPollh.selects w = true →
      Decoded w (.pollh (Mode.ofBit (fieldF1 w)) (Kind.ofBit (fieldF0 w)) (fieldLen w) (fieldIdA w) (fieldData w))
  | setTimeout : rowSetTimeout.selects w = true → Decoded w (.setTimeout (fieldTimeout w))
  | decode : rowDecode.selects w = true → Decoded w (.decode (fieldLen w) (fieldData w))

theorem Decoded.decode_eq (h : Decoded w i) : Sys2Proof.decode w = .ok i := by
  cases h with
  | init h =>
    have hop : fieldOp w = 0x1#4 := fieldOp_of_selects (by decide) h
    simp [Sys2Proof.decode, hop, h]
  | poll h =>
    have hop : fieldOp w = 0x2#4 := fieldOp_of_selects (by decide) h
    simp [Sys2Proof.decode, hop, h]
  | pollh h =>
    have hop : fieldOp w = 0x3#4 := fieldOp_of_selects (by decide) h
    simp [Sys2Proof.decode, hop, h]
  | setTimeout h =>
    have hop : fieldOp w = 0x4#4 := fieldOp_of_selects (by decide) h
    simp [Sys2Proof.decode, hop, h]
  | decode h =>
    have hop : fieldOp w = 0x5#4 := fieldOp_of_selects (by decide) h
    simp [Sys2Proof.decode, hop, h]

/-- A selected row is one of the five (R83). -/
theorem exists_decoded_of_selects (hr : r ∈ opcodeMap) (h : r.selects w = true) : ∃ i, Decoded w i := by
  simp only [opcodeMap, List.mem_cons, List.not_mem_nil, or_false] at hr
  obtain rfl | rfl | rfl | rfl | rfl := hr
  · exact ⟨_, .init h⟩
  · exact ⟨_, .poll h⟩
  · exact ⟨_, .pollh h⟩
  · exact ⟨_, .setTimeout h⟩
  · exact ⟨_, .decode h⟩

theorem Decoded.exists_row (h : Decoded w i) : ∃ r ∈ opcodeMap, r.selects w = true := by
  cases h with
  | init h => exact ⟨rowInit, by decide, h⟩
  | poll h => exact ⟨rowPoll, by decide, h⟩
  | pollh h => exact ⟨rowPollh, by decide, h⟩
  | setTimeout h => exact ⟨rowSetTimeout, by decide, h⟩
  | decode h => exact ⟨rowDecode, by decide, h⟩

/-- A word that no row selects is rejected: by its opcode if that is reserved (R85), else for a reserved bit (R86). -/
theorem decode_of_no_row (h : ∀ r ∈ opcodeMap, r.selects w = false) :
    decode w = .error (if fieldOp w = 0#4 ∨ 5 < (fieldOp w).toNat then .reservedOpcode (fieldOp w)
      else .reservedBits (fieldOp w)) := by
  simp only [opcodeMap, List.forall_mem_cons] at h
  obtain ⟨hInit, hPoll, hPollh, hSetTimeout, hDecode, -⟩ := h
  simp only [decode, hInit, hPoll, hPollh, hSetTimeout, hDecode, Bool.false_eq_true, if_false]
  generalize fieldOp w = op
  revert op
  decide

/-- The decoder answers an instruction exactly when a row that selects the word reads it (R83, R91). -/
theorem decode_eq_ok_iff : decode w = .ok i ↔ Decoded w i := by
  refine ⟨fun hd => ?_, Decoded.decode_eq⟩
  by_cases hrow : ∃ r ∈ opcodeMap, r.selects w = true
  · obtain ⟨r, hr, hw⟩ := hrow
    obtain ⟨j, hj⟩ := exists_decoded_of_selects hr hw
    cases hj.decode_eq.symm.trans hd
    exact hj
  · cases (decode_of_no_row (by simpa using hrow)).symm.trans hd

theorem exists_decode_eq_ok_iff : (∃ i, decode w = .ok i) ↔ ∃ r ∈ opcodeMap, r.selects w = true := by
  constructor
  · rintro ⟨i, hd⟩
    exact (decode_eq_ok_iff.1 hd).exists_row
  · rintro ⟨r, hr, hw⟩
    obtain ⟨i, hi⟩ := exists_decoded_of_selects hr hw
    exact ⟨i, hi.decode_eq⟩

/-- A word some row selects has one of the five opcodes (R83). -/
theorem fieldOp_of_exists_row (h : ∃ r ∈ opcodeMap, r.selects w = true) :
    0 < (fieldOp w).toNat ∧ (fieldOp w).toNat ≤ 5 := by
  obtain ⟨r, hr, hw⟩ := h
  rw [fieldOp_of_selects hr hw]
  exact fieldOp_pattern_bounds r hr

/-- Settles O3: a selected word decodes and has a command's opcode, an unselected one is rejected by its opcode. -/
theorem decodeFollowsOpcodeMap : Obligations.DecodeFollowsOpcodeMap := by
  intro w
  refine ⟨exists_decode_eq_ok_iff, fun r hr q hq => row_eq_of_selects hr hq, ?_⟩
  have hzero : fieldOp w = 0#4 ↔ (fieldOp w).toNat = 0 := BitVec.toNat_inj.symm
  by_cases hrow : ∃ r ∈ opcodeMap, r.selects w = true
  · obtain ⟨i, hd⟩ := exists_decode_eq_ok_iff.2 hrow
    have hop := fieldOp_of_exists_row hrow
    rw [hd, hzero]
    refine ⟨iff_of_false nofun (by omega), iff_of_false nofun ?_⟩
    rintro ⟨-, -, hnone⟩
    obtain ⟨r, hr, hw⟩ := hrow
    simp [hnone r hr] at hw
  · have hnone : ∀ r ∈ opcodeMap, r.selects w = false := by simpa using hrow
    rw [decode_of_no_row hnone]
    by_cases hres : fieldOp w = 0#4 ∨ 5 < (fieldOp w).toNat
    · rw [if_pos hres]
      refine ⟨iff_of_true rfl hres, iff_of_false nofun ?_⟩
      rw [hzero] at hres
      omega
    · rw [if_neg hres]
      refine ⟨iff_of_false nofun hres, iff_of_true rfl ?_⟩
      rw [hzero] at hres
      exact ⟨by omega, by omega, hnone⟩

/-! ## The round trips -/

/-- The word of an instruction selects the instruction's row, and its fields are the operands (R82, R84). -/
theorem decoded_encode (i : Instr) : Decoded (encode i) i := by
  cases i with
  | init debug node bitrate timeout => simpa [encode] using Decoded.init (Laws.RowFits.init debug node bitrate timeout)
  | poll mode kind len hdr filt payload =>
    simpa [encode] using Decoded.poll (Laws.RowFits.poll mode kind len hdr filt payload)
  | pollh mode kind len hdr payload => simpa [encode] using Decoded.pollh (Laws.RowFits.pollh mode kind len hdr payload)
  | setTimeout timeout =>
    simpa only [encode, fieldTimeout_assemble] using Decoded.setTimeout (Laws.RowFits.setTimeout timeout)
  | decode len operand => simpa [encode] using Decoded.decode (Laws.RowFits.decode len operand)

/-- Settles O1: the encoded word selects its own row, and the decoder reads that row. -/
theorem decodeOfEncode : Obligations.DecodeOfEncode := fun i => (decoded_encode i).decode_eq

/-- The bits that belong to no field of R81 are 0. -/
def UnusedBitsZero (w : CmdWord) : Prop :=
  w.extractLsb' 120 2 = 0#2 ∧ w.extractLsb' 107 5 = 0#5 ∧ w.extractLsb' 91 5 = 0#5 ∧ w.extractLsb' 64 16 = 0#16

/-- Bits that every mask covers and every pattern has 0 are 0 in a word some row selects (R83, R86). -/
theorem extractLsb'_eq_zero_of_selects {start len : Nat} (hr : r ∈ opcodeMap) (h : r.selects w = true)
    (reserved : ∀ q ∈ opcodeMap,
      q.mask.extractLsb' start len = BitVec.allOnes len ∧ q.pattern.extractLsb' start len = 0#len) :
    w.extractLsb' start len = 0#len := by
  obtain ⟨hmask, hpattern⟩ := reserved r hr
  exact (Row.extractLsb'_of_selects h hmask).trans hpattern

theorem unusedBitsZero_of_selects (hr : r ∈ opcodeMap) (h : r.selects w = true) : UnusedBitsZero w :=
  ⟨extractLsb'_eq_zero_of_selects hr h (by decide), extractLsb'_eq_zero_of_selects hr h (by decide),
    extractLsb'_eq_zero_of_selects hr h (by decide), extractLsb'_eq_zero_of_selects hr h (by decide)⟩

theorem ofBool_beq_one (b : BitVec 1) : BitVec.ofBool (b == 1#1) = b := by
  revert b
  decide

/-- A word is its fields with the unused bits between them (R81). -/
theorem fields_append (w : CmdWord) :
    fieldOp w ++ BitVec.ofBool (fieldF1 w) ++ BitVec.ofBool (fieldF0 w) ++ w.extractLsb' 120 2 ++ fieldLen w ++
      w.extractLsb' 107 5 ++ fieldIdA w ++ w.extractLsb' 91 5 ++ fieldIdB w ++ w.extractLsb' 64 16 ++ fieldData w = w := by
  simp only [fieldOp, fieldF1, fieldF0, fieldLen, fieldIdA, fieldIdB, fieldData, ofBool_beq_one]
  simp only [BitVec.extractLsb'_append_extractLsb'_eq_extractLsb']
  exact BitVec.extractLsb'_eq_self

/-- A word whose unused bits are 0 is put together from its fields (R81). -/
theorem assemble_fields (h : UnusedBitsZero w) :
    assemble (fieldOp w) (fieldF1 w) (fieldF0 w) (fieldLen w) (fieldIdA w) (fieldIdB w) (fieldData w) = w := by
  obtain ⟨h120, h107, h91, h64⟩ := h
  have hw := fields_append w
  rwa [h120, h107, h91, h64] at hw

/-- `DATA` is `BITRATE` above `TIMEOUT` (R81). -/
theorem fieldBitrate_append_fieldTimeout (w : CmdWord) : fieldBitrate w ++ fieldTimeout w = fieldData w :=
  BitVec.extractLsb'_append_extractLsb'_eq_extractLsb' rfl

theorem Row.fieldF1_of_selects (h : r.selects w = true) (hmask : r.mask.extractLsb' 123 1 = 1#1) :
    fieldF1 w = fieldF1 r.pattern := congrArg (· == 1#1) (Row.extractLsb'_of_selects h hmask)

theorem Row.fieldF0_of_selects (h : r.selects w = true) (hmask : r.mask.extractLsb' 122 1 = 1#1) :
    fieldF0 w = fieldF0 r.pattern := congrArg (· == 1#1) (Row.extractLsb'_of_selects h hmask)

/-- The encoder writes every field the row reads, and the row's pattern fixes the others (R82, R83). -/
theorem Decoded.encode_eq (h : Decoded w i) : encode i = w := by
  obtain ⟨r, hr, hrow⟩ := h.exists_row
  have hfields := assemble_fields (unusedBitsZero_of_selects hr hrow)
  cases h with
  | init h =>
    have hop : fieldOp w = 0x1#4 := fieldOp_of_selects (by decide) h
    have hf0 : fieldF0 w = false := Row.fieldF0_of_selects h (by decide)
    have hlen : fieldLen w = 0#8 := Row.extractLsb'_of_selects h (by decide)
    have hidb : fieldIdB w = 0#11 := Row.extractLsb'_of_selects h (by decide)
    rwa [hop, hf0, hlen, hidb, ← fieldBitrate_append_fieldTimeout] at hfields
  | poll h =>
    have hop : fieldOp w = 0x2#4 := fieldOp_of_selects (by decide) h
    simpa only [encode, Mode.bit_ofBit, Kind.bit_ofBit, hop] using hfields
  | pollh h =>
    have hop : fieldOp w = 0x3#4 := fieldOp_of_selects (by decide) h
    have hidb : fieldIdB w = 0#11 := Row.extractLsb'_of_selects h (by decide)
    simpa only [encode, Mode.bit_ofBit, Kind.bit_ofBit, hop, hidb] using hfields
  | setTimeout h =>
    have hop : fieldOp w = 0x4#4 := fieldOp_of_selects (by decide) h
    have hf1 : fieldF1 w = false := Row.fieldF1_of_selects h (by decide)
    have hf0 : fieldF0 w = false := Row.fieldF0_of_selects h (by decide)
    have hlen : fieldLen w = 0#8 := Row.extractLsb'_of_selects h (by decide)
    have hida : fieldIdA w = 0#11 := Row.extractLsb'_of_selects h (by decide)
    have hidb : fieldIdB w = 0#11 := Row.extractLsb'_of_selects h (by decide)
    have hhigh : fieldBitrate w = 0#32 := Row.extractLsb'_of_selects h (by decide)
    rwa [hop, hf1, hf0, hlen, hida, hidb, ← fieldBitrate_append_fieldTimeout, hhigh] at hfields
  | decode h =>
    have hop : fieldOp w = 0x5#4 := fieldOp_of_selects (by decide) h
    have hf1 : fieldF1 w = false := Row.fieldF1_of_selects h (by decide)
    have hf0 : fieldF0 w = false := Row.fieldF0_of_selects h (by decide)
    have hida : fieldIdA w = 0#11 := Row.extractLsb'_of_selects h (by decide)
    have hidb : fieldIdB w = 0#11 := Row.extractLsb'_of_selects h (by decide)
    rwa [hop, hf1, hf0, hida, hidb] at hfields

/-- Settles O2: the decoder reads a row that selects the word, and that row leaves no bit open but the operands'. -/
theorem encodeOfDecode : Obligations.EncodeOfDecode := fun _ _ hd => (decode_eq_ok_iff.1 hd).encode_eq

end Sys2Proof

namespace Sys2Proof.Machine

variable {inp : Inputs} {s u : State} {w : CmdWord} {i : Instr}

/-! ## The acceptance checks (R91) -/

/-- A failure decided at once is the step's one output event, with the sentinel, and changes nothing else (R217). -/
theorem raise_eq (houts : u.outs = []) (status : Status) :
    u.raise status = { u with outs := [.respond status SENTINEL] } := by
  have hraise : u.raise status = { u with outs := u.outs ++ [.respond status SENTINEL] } := rfl
  rw [hraise, houts, List.nil_append]

theorem rejectWord_idle (hst : u.st = .idle) : rejectWord u = .next (u.raise .illegalCmd) := whenIdle_idle _ hst

theorem execInit_constructed (hst : u.st = .idle) (hinited : u.inited = true) (debug : Bool) (node : CanId)
    (bitrate timeout : Word32) : execInit debug node bitrate timeout u = .next (u.raise .badState) :=
  (whenIdle_idle _ hst).trans (if_pos hinited)

theorem acceptPoll_unconstructed (hst : u.st = .idle) (hinited : u.inited = false) (mode : Mode) (kind : Kind)
    (len : BitVec 8) (hdr filt : CanId) (payload : Value) :
    acceptPoll mode kind len hdr filt payload u = .next (u.raise .badState) :=
  (whenIdle_idle _ hst).trans (if_neg (by simp [hinited]))

theorem acceptPoll_tooLong (hst : u.st = .idle) (hinited : u.inited = true) {len : BitVec 8} (hlen : 8 < len.toNat)
    (mode : Mode) (kind : Kind) (hdr filt : CanId) (payload : Value) :
    acceptPoll mode kind len hdr filt payload u = .next (u.raise .payloadTooLong) :=
  (whenIdle_idle _ hst).trans ((if_pos hinited).trans (if_neg (by simpa [MAX_LEN] using hlen)))

theorem execSetTimeout_unconstructed (hst : u.st = .idle) (hinited : u.inited = false) (timeout : Word32) :
    execSetTimeout timeout u = .next (u.raise .badState) :=
  (whenIdle_idle _ hst).trans (if_neg (by simp [hinited]))

theorem execDecode_tooLong (hst : u.st = .idle) {len : BitVec 8} (hlen : 8 < len.toNat) (operand : Value) :
    execDecode len operand u = .next (u.raise .illegalCmd) := by
  rw [execDecode, whenIdle_idle _ hst, decodeBytes_of_gt hlen]

section Presented

variable (he : s.takeEvent = (.step inp, u)) (hst : u.st = .idle) (hc : inp.cmd = some w)
include he hst hc

theorem step_eq_exec_of_decoded (h : Decoded w i) : step s = exec i u := step_eq_exec he hst hc h.decode_eq

/-- A presented word that no row selects is rejected (R85, R86). -/
theorem step_eq_rejectWord (h : ∀ r ∈ opcodeMap, r.selects w = false) : step s = rejectWord u := by
  rw [step_of_takeEvent he]
  simp only [runEvent, sequencerStep, hst, hc, acceptWord, decode_of_no_row h, if_true]

/-- A presented POLL or POLLH word is accepted as a poll with the word's length (R120, R136). -/
theorem step_eq_acceptPoll (h : rowPoll.selects w = true ∨ rowPollh.selects w = true) :
    ∃ mode kind hdr filt payload, step s = acceptPoll mode kind (fieldLen w) hdr filt payload u := by
  obtain h | h := h
  · exact ⟨_, _, _, _, _, step_eq_exec_of_decoded he hst hc (.poll h)⟩
  · exact ⟨_, _, _, _, _, step_eq_exec_of_decoded he hst hc (.pollh h)⟩

end Presented

/-- Settles O8: the word's row says which command's acceptance is run, and that command's failing check answers. -/
theorem acceptanceChecksInOrder : Obligations.AcceptanceChecksInOrder := by
  intro s u inp w he hst hc
  have answer (status : Status) := raise_eq (outs_of_takeEvent he) status
  simp only [← answer]
  refine ⟨fun h => ?_, fun h hinited => ?_, fun h hinited => ?_, fun h hinited hlen => ?_, fun h hlen => ?_⟩
  · exact (step_eq_rejectWord he hst hc h).trans (rejectWord_idle hst)
  · exact (step_eq_exec_of_decoded he hst hc (.init h)).trans (execInit_constructed hst hinited ..)
  · rw [← or_assoc] at h
    obtain hpoll | htimeout := h
    · obtain ⟨mode, kind, hdr, filt, payload, hstep⟩ := step_eq_acceptPoll he hst hc hpoll
      exact hstep.trans (acceptPoll_unconstructed hst hinited ..)
    · exact (step_eq_exec_of_decoded he hst hc (.setTimeout htimeout)).trans (execSetTimeout_unconstructed hst hinited _)
  · obtain ⟨mode, kind, hdr, filt, payload, hstep⟩ := step_eq_acceptPoll he hst hc h
    exact hstep.trans (acceptPoll_tooLong hst hinited hlen ..)
  · exact (step_eq_exec_of_decoded he hst hc (.decode h)).trans (execDecode_tooLong hst hlen _)

end Sys2Proof.Machine
end

section
/-! SUPPORT. Construction (spec/40_construction.md): the acceptance of INIT (R111, R115), the steps of BEGIN (R112 to R114) and
the runs made of them, which steps transmit (R116, R124, R127), and the command words that the rules print. -/

namespace Sys2Proof

variable {w : CmdWord} {i : Instr}

/-! ## Printed words -/

theorem decode_of_encode_eq (h : encode i = w) : decode w = .ok i := h ▸ decodeOfEncode i

/-- Settles O4: each word is the encoding of its command, and no row selects the word with `IDB` = 1. -/
theorem printedWordsDecode : Obligations.PrintedWordsDecode :=
  ⟨decode_of_encode_eq (by decide), decode_of_encode_eq (by decide), decode_of_encode_eq (by decide),
    decode_of_encode_eq (by decide), decode_of_encode_eq (by decide), decode_of_encode_eq (by decide),
    decode_of_encode_eq (by decide), decode_of_no_row (by decide)⟩

end Sys2Proof

namespace Sys2Proof.Machine

variable {p : Params} {inp : Inputs} {s t u : State}

/-! ## The acceptance of INIT -/

theorem execInit_unconstructed (hst : u.st = .idle) (hinited : u.inited = false) (debug : Bool) (node : CanId)
    (bitrate timeout : Word32) : execInit debug node bitrate timeout u =
      .next (((u.configure debug node bitrate timeout).emit (.begin bitrate debug)).goto .begin) :=
  (whenIdle_idle _ hst).trans (if_neg (by simp [hinited]))

/-- Settles O12: the acceptance step of R111, whose three operations write the fields named. -/
theorem initAcceptanceStartsConstruction : Obligations.InitAcceptanceStartsConstruction :=
  fun debug node bitrate timeout _ hst hinited => execInit_unconstructed hst hinited debug node bitrate timeout

/-- Settles O13: the failure exit of R115, which adds one response and writes nothing. -/
theorem initAfterConstructionIsBadState : Obligations.InitAfterConstructionIsBadState :=
  fun debug node bitrate timeout _ hst hinited => execInit_constructed hst hinited debug node bitrate timeout

/-! ## The steps of BEGIN -/

/-- The state after the bus has answered a `begin`: constructed with the default filter (R113), or failed (R114). -/
def State.begun (u : State) (ok : Bool) : State :=
  if ok then { u with ftab := [u.defaultEntry], inited := true, st := .idle, outs := [.respond .ok 0#64] }
  else { u with st := .idle, outs := [.respond .initFailed SENTINEL] }

theorem stepBegin_wait (hdone : inp.beginDone = false) : stepBegin p inp u = .next u := if_neg (by simp [hdone])

theorem stepBegin_done (houts : u.outs = []) (hdone : inp.beginDone = true) :
    stepBegin p inp u = .next (u.begun inp.beginOk) := by
  rw [stepBegin, if_pos hdone, State.setFilterDefault, afterFilter_setFilter, raise_eq houts]
  cases inp.beginOk with
  | false => rfl
  | true => simp [State.begun, State.respond, State.emit, State.goto, State.defaultEntry, houts]

section Begin

variable (he : s.takeEvent = (.step inp, u)) (hst : u.st = .begin)
include he hst

theorem step_eq_stepBegin : step s = stepBegin Config.params inp u := by
  rw [step_eq_advance he (by simp [hst])]
  simp only [advance, hst]

theorem step_begin_wait (hdone : inp.beginDone = false) : step s = .next u :=
  (step_eq_stepBegin he hst).trans (stepBegin_wait hdone)

theorem step_begin_done (hdone : inp.beginDone = true) : step s = .next (u.begun inp.beginOk) :=
  (step_eq_stepBegin he hst).trans (stepBegin_done (outs_of_takeEvent he) hdone)

end Begin

/-- Settles O14: a step in BEGIN leaves the state it finds, or the one `State.begun` names for `begin_ok`. -/
theorem beginWaitsCompletesOrFails : Obligations.BeginWaitsCompletesOrFails := by
  intro s u inp he hst
  refine ⟨step_begin_wait he hst, fun hdone hok => ?_, fun hdone hok => ?_⟩
  · rw [step_begin_done he hst hdone, hok]; rfl
  · rw [step_begin_done he hst hdone, hok]; rfl

/-! ## The run of an INIT -/

/-- From BEGIN, any number of waiting steps (R112) and the step with the bus's answer: the waits leave no trace in the result,
which is that of the last step alone. -/
theorem steps_begin {done : Inputs} {rest : List Event} (hdone : done.beginDone = true) (waits : List Inputs)
    (hwaits : ∀ i ∈ waits, i.beginDone = false) (hst : s.st = .begin)
    (henv : s.env = waits.map Event.step ++ .step done :: rest) :
    steps (waits.length + 1) s = .next ((s.after rest).begun done.beginOk) := by
  induction waits generalizing s with
  | nil => exact steps_succ (step_begin_done (takeEvent_cons henv) hst hdone)
  | cons i waits ih =>
    obtain ⟨hi, hwaits⟩ := List.forall_mem_cons.1 hwaits
    have hwait : step s = .next (s.after (waits.map Event.step ++ .step done :: rest)) :=
      step_begin_wait (takeEvent_cons henv) hst hi
    exact (steps_succ hwait).trans (ih hwaits hst rfl)

/-- Settles O15: the acceptance step leads to BEGIN with the configuration written, and `steps_begin` is the rest of the run. -/
theorem initRunCompletes : Obligations.InitRunCompletes := by
  intro s i0 done waits rest w debug node bitrate timeout hst hinited hcmd hdecode hwaits hdone henv
  have haccept := (step_exec henv hst hcmd hdecode).trans
    (initAcceptanceStartsConstruction debug node bitrate timeout (s.after _) hst hinited)
  rw [steps_succ haccept, steps_begin hdone waits hwaits rfl rfl, hst]
  rfl

/-! ## Transmissions -/

/-- A sequencer step with these inputs transmits: the query (R124), or the diagnostic frame of a failed error check (R127). -/
def State.Transmits (s : State) (inp : Inputs) : Prop :=
  (s.st = .filterSet ∧ s.rqMode = .queryResponse) ∨
  ((s.st = .transmit ∨ (s.st = .filterSet ∧ s.rqMode = .passiveListen)) ∧ inp.errStatus ≠ 0#8)

theorem State.Transmits.st_cases (h : s.Transmits inp) : s.st = .filterSet ∨ s.st = .transmit := by
  obtain ⟨hst, _⟩ | ⟨hst | ⟨hst, _⟩, _⟩ := h
  · exact .inl hst
  · exact .inr hst
  · exact .inl hst

theorem not_transmits_of_st {ph : Phase} (hst : s.st = ph) (hset : ph ≠ .filterSet) (htx : ph ≠ .transmit) :
    ¬ s.Transmits inp := fun h => h.st_cases.elim (hset <| hst.symm.trans ·) (htx <| hst.symm.trans ·)

/-- In a state with an error check, only an error transmits (R126). -/
theorem not_transmits_of_noError
    (hst : s.st = .transmit ∨ (s.st = .filterSet ∧ s.rqMode = .passiveListen)) (herr : inp.errStatus = 0#8) :
    ¬ s.Transmits inp := by
  rintro (⟨hset, hmode⟩ | ⟨_, hne⟩)
  · obtain htx | ⟨_, hlisten⟩ := hst
    · exact absurd (hset.symm.trans htx) nofun
    · exact absurd (hmode.symm.trans hlisten) nofun
  · exact hne herr

/-- Taking the event changes nothing that decides a transmission. -/
theorem transmits_takeEvent : s.takeEvent.2.Transmits inp ↔ s.Transmits inp := by
  simp only [State.Transmits, takeEvent_snd_st, takeEvent_snd_rqMode]

theorem transmissions_congr (h : t.outs = u.outs) : t.transmissions = u.transmissions := by
  rw [State.transmissions, State.transmissions, h]

theorem transmissions_of_outs_nil (h : t.outs = []) : t.transmissions = 0 := by
  rw [State.transmissions, h, List.countP_nil]

theorem transmissions_of_tx {f : Frame} (h : t.outs = u.outs ++ [.tx f]) : t.transmissions = u.transmissions + 1 := by
  simp [State.transmissions, h, OutEvent.isTx]

theorem transmissions_of_no_tx {e : OutEvent} (h : t.outs = u.outs ++ [e]) (he : e.isTx = false) :
    t.transmissions = u.transmissions := by
  simp [State.transmissions, h, he]

/-- No acceptance transmits (R116). -/
theorem Accepted.transmissions_eq {i : Instr} (h : Accepted u i t) : t.transmissions = u.transmissions := by
  cases h with
  | answered _ _ _ _ => exact transmissions_of_no_tx rfl rfl
  | construction _ _ _ _ _ => exact transmissions_of_no_tx rfl rfl
  | timeout _ _ => exact transmissions_of_no_tx rfl rfl
  | request _ _ _ _ _ _ _ _ _ _ => exact transmissions_congr rfl

/-- Of the transitions, the query and the failed error check transmit one frame, the others none (R138). -/
theorem Move.transmissions_cases (h : Move p inp u t) :
    (u.Transmits inp ∧ t.transmissions = u.transmissions + 1) ∨
    (¬ u.Transmits inp ∧ t.transmissions = u.transmissions) := by
  cases h with
  | beginWaits hst _ => exact .inr ⟨not_transmits_of_st hst nofun nofun, rfl⟩
  | beginCompletes hst _ _ => exact .inr ⟨not_transmits_of_st hst nofun nofun, transmissions_of_no_tx rfl rfl⟩
  | beginFails hst _ _ => exact .inr ⟨not_transmits_of_st hst nofun nofun, transmissions_of_no_tx rfl rfl⟩
  | query hst hmode => exact .inl ⟨.inl ⟨hst, hmode⟩, transmissions_of_tx rfl⟩
  | noError hst herr => exact .inr ⟨not_transmits_of_noError hst herr, transmissions_congr rfl⟩
  | busError hst herr => exact .inl ⟨.inr ⟨hst, herr⟩, transmissions_of_tx rfl⟩
  | frame _ _ _ hst _ _ => exact .inr ⟨not_transmits_of_st hst nofun nofun, transmissions_congr rfl⟩
  | deadline hst _ _ => exact .inr ⟨not_transmits_of_st hst nofun nofun, transmissions_congr rfl⟩
  | keepWaiting hst _ _ => exact .inr ⟨not_transmits_of_st hst nofun nofun, rfl⟩
  | restore hst =>
    obtain hst | hst | hst := hst <;> exact .inr ⟨not_transmits_of_st hst nofun nofun, transmissions_congr rfl⟩
  | answer hst => exact .inr ⟨not_transmits_of_st hst nofun nofun, transmissions_of_no_tx rfl rfl⟩

/-- A step transmits one frame or none, and which of the two `State.Transmits` says. -/
theorem step_transmissions_cases (h : step s = .next t) :
    ((∃ inp, s.takeEvent.1 = .step inp ∧ s.Transmits inp) ∧ t.transmissions = 1) ∨
    ((¬ ∃ inp, s.takeEvent.1 = .step inp ∧ s.Transmits inp) ∧ t.transmissions = 0) := by
  have h0 : s.takeEvent.2.transmissions = 0 := transmissions_of_outs_nil (takeEvent_snd_outs s)
  have notIdle (hst : s.st = .idle) : ¬ ∃ inp, s.takeEvent.1 = .step inp ∧ s.Transmits inp :=
    fun ⟨_, _, htx⟩ => not_transmits_of_st hst nofun nofun htx
  obtain ⟨he, rfl⟩ | ⟨f, he, ha⟩ | ⟨inp, he, hcase⟩ := step_cases h
  · exact .inr ⟨by simp [he], rfl⟩
  · exact .inr ⟨by simp [he], (transmissions_congr (arrive_st_outs ha).2).trans h0⟩
  · obtain ⟨hst, _, rfl⟩ | ⟨w, i, hst, _, _, ha⟩ | ⟨w, e, hst, _, _, rfl⟩ | ⟨_, hm⟩ := hcase
    · exact .inr ⟨notIdle hst, h0⟩
    · exact .inr ⟨notIdle hst, ha.transmissions_eq.trans h0⟩
    · exact .inr ⟨notIdle hst, (transmissions_of_no_tx rfl rfl).trans h0⟩
    · have hmove := hm.transmissions_cases
      rw [transmits_takeEvent, h0] at hmove
      simpa [he] using hmove

/-- Settles O47: one transmission or none, by the event the step takes. -/
theorem onlyQueryAndDiagnosticTransmit : Obligations.OnlyQueryAndDiagnosticTransmit := by
  intro s t h
  obtain ⟨htx, hone⟩ | ⟨hno, hzero⟩ := step_transmissions_cases h
  · exact ⟨hone.le, iff_of_true hone htx⟩
  · exact ⟨by omega, iff_of_false (by omega) hno⟩

end Sys2Proof.Machine
end

section
/-! SUPPORT. The poll (spec/41_poll.md): a POLLH word and the POLL word it stands for (R136), the value of a decoded frame (R161),
the acceptance of a poll (R122, R123), each step of the receiver state machine (R124 to R134), the whole transition relation
(R138), and the runs made of these steps (R140). -/

namespace Sys2Proof

variable {w : CmdWord} {i : Instr}

/-! ## A POLLH word and its POLL word (R136) -/

/-- The POLL word selects the POLL row, since it is the encoding of a POLL. -/
theorem rowPoll_selects_pollOfPollh (w : CmdWord) : rowPoll.selects (pollOfPollh w) = true := by
  have h := Laws.RowFits.poll (Mode.ofBit (fieldF1 w)) (Kind.ofBit (fieldF0 w)) (fieldLen w) (fieldIdA w) (fieldIdA w)
    (fieldData w)
  simpa only [Laws.RowFits.Statement, Instr.row, encode, Mode.bit_ofBit, Kind.bit_ofBit, pollOfPollh] using h

/-- The POLL word decodes to the POLL with the operands of the POLLH word and its header as the filter. -/
theorem decode_pollOfPollh (w : CmdWord) :
    decode (pollOfPollh w) = .ok (.poll (Mode.ofBit (fieldF1 w)) (Kind.ofBit (fieldF0 w)) (fieldLen w) (fieldIdA w)
      (fieldIdA w) (fieldData w)) := by
  simpa [pollOfPollh] using (Decoded.poll (rowPoll_selects_pollOfPollh w)).decode_eq

/-- A POLLH word is put together from its fields, `IDB` being 0. -/
theorem eq_assemble_of_rowPollh (h : rowPollh.selects w = true) :
    w = assemble 0x3#4 (fieldF1 w) (fieldF0 w) (fieldLen w) (fieldIdA w) 0#11 (fieldData w) := by
  simpa only [encode, Mode.bit_ofBit, Kind.bit_ofBit] using (Decoded.pollh h).encode_eq.symm

/-- Two words with the same low part differ at most above it. -/
theorem getLsbD_append_congr {m n k : Nat} {x x' : BitVec m} {y : BitVec n}
    (h : n ≤ k → x.getLsbD (k - n) = x'.getLsbD (k - n)) : (x ++ y).getLsbD k = (x' ++ y).getLsbD k := by
  rw [BitVec.getLsbD_append, BitVec.getLsbD_append]
  by_cases hk : k < n
  · rw [if_pos hk, if_pos hk]
  · rw [if_neg hk, if_neg hk, h (Nat.le_of_not_lt hk)]

/-- `OP` and `IDB` show in no bit outside 127:124 and 90:80 (R81). -/
theorem getLsbD_assemble_congr (op op' : BitVec 4) (f1 f0 : Bool) (len : BitVec 8) (ida idb idb' : CanId) (data : Value)
    {k : Nat} (hidb : k < 80 ∨ 90 < k) (hop : k < 124) :
    (assemble op f1 f0 len ida idb data).getLsbD k = (assemble op' f1 f0 len ida idb' data).getLsbD k := by
  refine getLsbD_append_congr fun _ => getLsbD_append_congr fun _ => ?_
  have habove : ¬ k - 64 - 16 < 11 := by omega
  rw [BitVec.getLsbD_append, if_neg habove, BitVec.getLsbD_append (y := idb'), if_neg habove]
  iterate 7 refine getLsbD_append_congr fun _ => ?_
  omega

end Sys2Proof

namespace Sys2Proof.Machine

variable {p : Params} {inp : Inputs} {s t u : State} {f : Frame} {q : List Frame} {i : Instr}

/-- Settles O5: the two words differ in `OP` and `IDB` alone, in IDLE both run the same acceptance, and outside IDLE neither is
looked at. -/
theorem pollhWordActsAsPollWord : Obligations.PollhWordActsAsPollWord := by
  intro s inp rest w hw
  refine ⟨rowPoll_selects_pollOfPollh w, fieldIdB_assemble .., fun k hidb hop => ?_, ?_⟩
  · conv_rhs => rw [eq_assemble_of_rowPollh hw]
    exact getLsbD_assemble_congr _ _ _ _ _ _ _ _ _ hidb hop
  · by_cases hst : s.st = .idle
    · have run {v : CmdWord} {j : Instr} (hd : decode v = .ok j) :
          step { s with env := .step { inp with cmd := some v } :: rest } = exec j (s.after rest) :=
        step_exec rfl hst rfl hd
      exact (run (Decoded.pollh hw).decode_eq).trans (run (decode_pollOfPollh w)).symm
    · obtain ⟨_, unread⟩ := busyBlockAcceptsNoCommand
      exact (unread s inp (some w) rest hst).trans (unread s inp (some (pollOfPollh w)) rest hst).symm

/-! ## The decoded value of a frame (R161) -/

theorem memRead_eq_sum (b : Bytes) (n : Nat) :
    memRead b 0 n = ∑ k ∈ Finset.range n, (byteAt b k).toNat * 2 ^ (8 * k) := by
  induction n with
  | zero => rfl
  | succ n ih => rw [memRead, ih, Nat.zero_add, Finset.sum_range_succ]

/-- Each of the `n` bytes is below 256, so the sum fits `8n` bits. -/
theorem memRead_lt (b : Bytes) (n : Nat) : memRead b 0 n < 2 ^ (8 * n) := by
  induction n with
  | zero => exact Nat.one_pos
  | succ n ih =>
    have hbyte : (byteAt b (0 + n)).toNat < 256 := (byteAt b (0 + n)).isLt
    have hpow : 2 ^ (8 * (n + 1)) = 256 * 2 ^ (8 * n) := by rw [Nat.mul_succ, Nat.pow_add, Nat.mul_comm]
    calc memRead b 0 (n + 1)
        < 2 ^ (8 * n) + (byteAt b (0 + n)).toNat * 2 ^ (8 * n) := Nat.add_lt_add_right ih _
      _ = ((byteAt b (0 + n)).toNat + 1) * 2 ^ (8 * n) := by ring
      _ ≤ 2 ^ (8 * (n + 1)) := hpow ▸ Nat.mul_le_mul_right _ hbyte

/-- The zero bytes above the first `n` add nothing to the sum. -/
theorem memRead_firstBytes (b : Bytes) {n : Nat} (hn : n ≤ 8) :
    memRead (firstBytes b n) 0 8 = ∑ k ∈ Finset.range n, (byteAt b k).toNat * 2 ^ (8 * k) := by
  have above : ∀ k ∈ Finset.range 8, k ∉ Finset.range n → (byteAt (firstBytes b n) k).toNat * 2 ^ (8 * k) = 0 := by
    intro k hk hkn
    rw [byteAt_firstBytes b n k (Finset.mem_range.1 hk), if_neg (Finset.mem_range.not.1 hkn)]
    exact Nat.zero_mul _
  rw [memRead_eq_sum, ← Finset.sum_subset (Finset.range_subset_range.2 hn) above]
  refine Finset.sum_congr rfl fun k hk => ?_
  have hkn : k < n := Finset.mem_range.1 hk
  rw [byteAt_firstBytes b n k (by omega), if_pos hkn]

/-- Up to 8 bytes have a value, their little-endian sum (R161). -/
theorem exists_decodeBytes_eq_sum (b : Bytes) {n : Nat} (hn : n ≤ 8) :
    ∃ v, decodeBytes b n = some v ∧ v.toNat = ∑ k ∈ Finset.range n, (byteAt b k).toNat * 2 ^ (8 * k) := by
  refine ⟨_, decodeBytes_of_le hn, ?_⟩
  rw [BitVec.toNat_ofNat, Nat.mod_eq_of_lt (memRead_lt _ 8), memRead_firstBytes b hn]

/-- Bytes from index `n` on do not matter to the value (R161). -/
theorem decodeBytes_firstBytes (b : Bytes) (n : Nat) : decodeBytes (firstBytes b n) n = decodeBytes b n := by
  have hfirst : firstBytes (firstBytes b n) n = firstBytes b n := by
    refine eq_of_byteAt_eq fun k hk => ?_
    rw [byteAt_firstBytes _ _ _ hk, byteAt_firstBytes _ _ _ hk]
    split_ifs <;> rfl
  rw [decodeBytes, decodeBytes, hfirst]

theorem le_of_decodeBytes_eq_some {b : Bytes} {n : Nat} {v : Value} (h : decodeBytes b n = some v) : n ≤ MAX_LEN := by
  by_contra hn
  cases (decodeBytes_of_gt (Nat.lt_of_not_le hn)).symm.trans h

/-! ## Acceptance (R122, R123) -/

/-- The state a poll with a legal length is accepted into: the request latched and its filter installed (R123). -/
def State.requested (u : State) (mode : Mode) (kind : Kind) (len : BitVec 8) (hdr filt : CanId) (payload : Value) : State :=
  { u with rqHdr := hdr, rqFilt := filt, rqMode := mode, rqKind := kind, rqLen := len.setWidth 4, rqData := payload,
           ftab := [⟨filt, MASK_EXACT⟩], st := .filterSet }

theorem acceptPoll_legal (hst : u.st = .idle) (hinited : u.inited = true) {len : BitVec 8} (hlen : len.toNat ≤ 8)
    (mode : Mode) (kind : Kind) (hdr filt : CanId) (payload : Value) :
    acceptPoll mode kind len hdr filt payload u = .next (u.requested mode kind len hdr filt payload) :=
  (whenIdle_idle _ hst).trans ((if_pos hinited).trans (if_pos hlen))

/-- Settles O16: both commands are accepted by one rule, POLLH with its header as the filter. -/
theorem pollAcceptanceInstallsFilter : Obligations.PollAcceptanceInstallsFilter :=
  fun mode kind _ hdr filt payload _ hst hinited hlen =>
    ⟨acceptPoll_legal hst hinited hlen mode kind hdr filt payload,
      acceptPoll_legal hst hinited hlen mode kind hdr hdr payload⟩

/-- Settles O17: the length guard comes before the latch and the filter, and its failure exit adds one response only. -/
theorem longPayloadHasNoEffect : Obligations.LongPayloadHasNoEffect :=
  fun mode kind _ hdr filt payload _ hst hinited hlen =>
    ⟨acceptPoll_tooLong hst hinited hlen mode kind hdr filt payload,
      acceptPoll_tooLong hst hinited hlen mode kind hdr hdr payload⟩

/-! ## The steps of the receiver state machine -/

/-- The state after the query step (R124). -/
def State.queried (u : State) : State := { u with st := .transmit, outs := [.tx u.queryFrame] }

/-- The state on entry to the wait loop (R126). -/
def State.waiting (u : State) (now : Word32) : State := { u with t0 := now, st := .wait }

/-- The state after the error check: waiting from this moment (R126), or a diagnostic frame sent (R127). -/
def State.checked (u : State) (inp : Inputs) : State :=
  if inp.errStatus = 0#8 then u.waiting inp.now
  else { u with outStatus := .busError, outValue := SENTINEL, st := .errored, outs := [.tx (u.diagFrame Config.params)] }

/-- The state after a frame has been taken from the queue, with its value prepared (R128). -/
def State.matched (u : State) (q : List Frame) (value : Value) : State :=
  { u with rxq := q, outStatus := .ok, outValue := value, st := .matched }

/-- The state after the deadline has passed, with the failure prepared (R129). -/
def State.expired (u : State) : State := { u with outStatus := .timedOut, outValue := SENTINEL, st := .timedOut }

theorem checked_of_noError (u : State) (herr : inp.errStatus = 0#8) : u.checked inp = u.waiting inp.now := if_pos herr

/-- An output event of a step is the first, so the only one. -/
theorem outs_append_of_takeEvent {e : Event} {o : OutEvent} (he : s.takeEvent = (e, u)) : u.outs ++ [o] = [o] := by
  rw [outs_of_takeEvent he, List.nil_append]

section Steps

variable (he : s.takeEvent = (.step inp, u))
include he

theorem step_queried (hst : u.st = .filterSet) (hm : u.rqMode = .queryResponse) : step s = .next u.queried := by
  rw [step_query he hst hm, outs_append_of_takeEvent he]
  rfl

theorem step_check (hst : u.st = .transmit ∨ (u.st = .filterSet ∧ u.rqMode = .passiveListen)) :
    step s = .next (u.checked inp) := by
  have hbusy : u.st ≠ .idle := by obtain hst | ⟨hst, _⟩ := hst <;> simp [hst]
  have hcheck : advance Config.params inp u = errorCheck Config.params inp u := by
    obtain hst | ⟨hst, hm⟩ := hst
    · simp only [advance, hst]
    · simp only [advance, hst, stepFilterSet, hm]
  rw [step_eq_advance he hbusy, hcheck, errorCheck_eq, outs_append_of_takeEvent he]
  rfl

theorem step_eq_stepWait (hst : u.st = .wait) : step s = stepWait inp u := by
  rw [step_eq_advance he (by simp [hst])]
  simp only [advance, hst]

/-- With a frame queued, neither the deadline nor the frame's identifier is looked at (R128, R137). -/
theorem step_wait_frame {v : Value} (hst : u.st = .wait) (hq : u.rxq = f :: q)
    (hv : decodeBytes f.data f.len.toNat = some v) :
    step s = .next (u.matched q v) := by
  rw [step_eq_stepWait he hst]
  simp only [stepWait, pop_cons hq, hv]
  rfl

theorem step_wait_deadline (hst : u.st = .wait) (hq : u.rxq = []) (hpassed : u.timeout ≤ inp.now - u.t0) :
    step s = .next u.expired := by
  rw [step_eq_stepWait he hst]
  simp only [stepWait, pop_nil hq, (deadlinePassed_iff ..).2 hpassed, if_true]
  rfl

theorem step_wait_keeps (hst : u.st = .wait) (hq : u.rxq = []) (hbefore : inp.now - u.t0 < u.timeout) :
    step s = .next u := by
  have hnot : ¬ deadlinePassed inp.now u.t0 u.timeout = true := by
    rwa [deadlinePassed_iff, BitVec.not_le]
  rw [step_eq_stepWait he hst]
  simp only [stepWait, pop_nil hq, if_neg hnot]

theorem step_restore (hst : u.st = .matched ∨ u.st = .timedOut ∨ u.st = .errored) :
    step s = .next { u with ftab := [u.defaultEntry], st := .filterRestored } := by
  have hbusy : u.st ≠ .idle := by obtain hst | hst | hst := hst <;> simp [hst]
  have hrestore : advance Config.params inp u = stepRestore Config.params u := by
    obtain hst | hst | hst := hst <;> simp only [advance, hst]
  exact (step_eq_advance he hbusy).trans hrestore

theorem step_answer (hst : u.st = .filterRestored) :
    step s = .next { u with st := .idle, outs := [.respond u.outStatus u.outValue] } := by
  rw [step_eq_advance he (by simp [hst]), ← outs_append_of_takeEvent he]
  simp only [advance, hst]
  rfl

end Steps

/-- Settles O18: the frame is `State.queryFrame`, whose bytes are those of the zero-filled buffer. -/
theorem queryFrameIsTransmitted : Obligations.QueryFrameIsTransmitted := by
  intro s u inp he hst hm
  refine ⟨u.queryFrame, rfl, rfl, rfl, fun k hk => ?_, step_queried he hst hm⟩
  exact (byteAt_firstBytes _ _ _ hk).trans (by rw [byteAt_bytes _ hk]; rfl)

/-- Settles O20: the first branch of the error check. -/
theorem noErrorEntersWait : Obligations.NoErrorEntersWait :=
  fun _ u _ he hst herr => (step_check he hst).trans (congrArg _ (checked_of_noError u herr))

/-- Settles O21: the second branch of the error check; DIAG_LEN, at most 8, fits the four bits of a frame's length. -/
theorem busErrorSendsDiagnosticFrame : Obligations.BusErrorSendsDiagnosticFrame := by
  intro s u inp he hst herr
  have hlen : (u.diagFrame Config.params).len.toNat = Config.params.diagLen.val :=
    (BitVec.toNat_ofNat _ 4).trans (Nat.mod_eq_of_lt (by omega))
  refine ⟨u.diagFrame Config.params, rfl, rfl, hlen, fun k hk => ?_, ?_⟩
  · rw [← hlen]
    exact byteAt_firstBytes _ _ _ hk
  · exact (step_check he hst).trans (congrArg _ (if_neg herr))

/-- Settles O22: a frame of at most 8 bytes has a value, and the step that pops it looks at nothing else. -/
theorem queuedFrameWinsOverDeadline : Obligations.QueuedFrameWinsOverDeadline := by
  intro s u inp f q he hst hq hlen
  obtain ⟨v, hv, hsum⟩ := exists_decodeBytes_eq_sum f.data hlen
  exact ⟨v, hsum, step_wait_frame he hst hq hv⟩

/-- Settles O23: the two WAIT steps with the queue empty. -/
theorem emptyQueueTimesOutAtDeadline : Obligations.EmptyQueueTimesOutAtDeadline :=
  fun _ _ _ he hst hq => ⟨step_wait_deadline he hst hq, step_wait_keeps he hst hq⟩

/-- Settles O24: the three states share one rule. -/
theorem terminalStatesRestoreFilter : Obligations.TerminalStatesRestoreFilter := fun _ _ _ => step_restore

/-- Settles O25: the one step that emits the prepared response. -/
theorem restoredFilterAnswers : Obligations.RestoredFilterAnswers := fun _ _ _ => step_answer

/-- Settles O50: the difference of two counts, taken on their 32-bit port values, is their difference modulo 2^32. -/
theorem deadlineMeasuresTrueElapsedTime : Obligations.DeadlineMeasuresTrueElapsedTime := by
  intro start current timeout hle
  have helapsed : (elapsed (BitVec.ofNat 32 current) (BitVec.ofNat 32 start)).toNat = (current - start) % 2 ^ 32 := by
    rw [elapsed, BitVec.toNat_sub, BitVec.toNat_ofNat, BitVec.toNat_ofNat]
    omega
  rw [deadlinePassed, decide_eq_true_iff, helapsed]

/-! ## Arrivals while a poll's filter is installed (R249) -/

theorem arrive_accepted (hlen : f.len.toNat ≤ MAX_LEN) (hacc : accept u.ftab f.id = true)
    (hroom : u.rxq.length < p.rxqDepth) : u.arrive p f = .next { u with rxq := u.rxq ++ [f] } := by
  rw [State.arrive, if_pos hlen, if_pos (by rw [hacc, (hasRoom_iff _ _).2 hroom]; rfl)]

theorem arrive_rejected (hlen : f.len.toNat ≤ MAX_LEN) (hacc : accept u.ftab f.id = false) :
    u.arrive p f = .next u := by
  rw [State.arrive, if_pos hlen, if_neg (by simp [hacc])]

/-- Settles O44: by I-c the table is the poll's one entry, which accepts the poll's identifier alone. -/
theorem filterWindow : Obligations.FilterWindow := by
  intro s u f hInv hfilt he hlen
  have hu : u = s.takeEvent.2 := by rw [he]
  obtain ⟨_, htab, _⟩ := hInv.filtering hfilt
  have hacc : accept u.ftab f.id = (f.id == s.rqFilt) := by
    rw [hu, takeEvent_snd_ftab, htab]
    exact accept_exact _ _
  rw [step_of_takeEvent he]
  refine ⟨fun hid hne => arrive_rejected hlen ?_, fun hid hroom => arrive_accepted hlen ?_ ?_⟩
  · rw [hacc, hid, beq_eq_false_iff_ne]
    exact hne
  · rw [hacc, hid, beq_self_eq_true]
  · rwa [hu, takeEvent_snd_rxq]

/-! ## The transition relation (R138) -/

/-- Where a presented poll leads: into the poll if it is legal, else back to IDLE (R91). -/
theorem acceptPoll_st (hst : u.st = .idle) {mode : Mode} {kind : Kind} {len : BitVec 8} {hdr filt : CanId} {payload : Value}
    (h : acceptPoll mode kind len hdr filt payload u = .next t) :
    t.st = if u.inited = true ∧ len.toNat ≤ 8 then .filterSet else .idle := by
  cases hinited : u.inited with
  | false =>
    cases (acceptPoll_unconstructed hst hinited ..).symm.trans h
    simp [hst]
  | true =>
    by_cases hlen : len.toNat ≤ 8
    · cases (acceptPoll_legal hst hinited hlen ..).symm.trans h
      simp [hlen, State.requested]
    · cases (acceptPoll_tooLong hst hinited (Nat.lt_of_not_le hlen) ..).symm.trans h
      simp [hlen, hst]

/-- A command with a request is accepted as the poll it requests (R120, R136). -/
theorem exec_of_request {mode : Mode} {kind : Kind} {len : BitVec 8} {hdr filt : CanId} {payload : Value}
    (h : i.request = some (mode, kind, len, hdr, filt, payload)) (u : State) :
    exec i u = acceptPoll mode kind len hdr filt payload u := by
  cases i with
  | poll | pollh => cases h; rfl
  | init | setTimeout | decode => cases h

theorem execInit_st (hst : u.st = .idle) {debug : Bool} {node : CanId} {bitrate timeout : Word32}
    (h : execInit debug node bitrate timeout u = .next t) : t.st = if u.inited then .idle else .begin := by
  cases hinited : u.inited with
  | false => cases (execInit_unconstructed hst hinited ..).symm.trans h; rfl
  | true => cases (execInit_constructed hst hinited ..).symm.trans h; exact hst

/-- SET_TIMEOUT and DECODE are answered at once: they neither construct nor poll. -/
theorem Accepted.st_of_answered (h : Accepted u i t) (hinit : ∀ d n b m, i ≠ .init d n b m) (hpoll : i.request = none) :
    t.st = u.st := by
  cases h with
  | answered | timeout => rfl
  | construction d n b m => exact absurd rfl (hinit d n b m)
  | request _ _ _ _ _ _ _ _ _ hi => obtain rfl | ⟨rfl, _⟩ := hi <;> cases hpoll

section Rows

variable (he : s.takeEvent = (.step inp, u)) (h : step s = .next t)
include he h

theorem st_of_begin (hst : u.st = .begin) : t.st = if inp.beginDone then .idle else .begin := by
  cases hdone : inp.beginDone with
  | false => cases (step_begin_wait he hst hdone).symm.trans h; exact hst
  | true =>
    cases (step_begin_done he hst hdone).symm.trans h
    cases inp.beginOk <;> rfl

theorem st_of_check (hst : u.st = .transmit ∨ (u.st = .filterSet ∧ u.rqMode = .passiveListen)) :
    t.st = if inp.errStatus = 0#8 then .wait else .errored := by
  cases (step_check he hst).symm.trans h
  exact apply_ite State.st _ _ _

theorem st_of_wait (hst : u.st = .wait) (hshort : ∀ f ∈ u.rxq, f.len.toNat ≤ MAX_LEN) :
    t.st = if u.rxq ≠ [] then .matched else if u.timeout ≤ inp.now - u.t0 then .timedOut else .wait := by
  cases hq : u.rxq with
  | nil =>
    by_cases hpassed : u.timeout ≤ inp.now - u.t0
    · cases (step_wait_deadline he hst hq hpassed).symm.trans h
      simp [hpassed, State.expired]
    · cases (step_wait_keeps he hst hq (BitVec.not_le.1 hpassed)).symm.trans h
      simp [hpassed, hst]
  | cons f q =>
    obtain ⟨v, hv, _⟩ := exists_decodeBytes_eq_sum f.data (hshort f (by simp [hq]))
    cases (step_wait_frame he hst hq hv).symm.trans h
    simp [State.matched]

/-- The rows for a word presented in IDLE. -/
theorem st_of_presented {w : CmdWord} (hst : u.st = .idle) (hc : inp.cmd = some w) :
    ((∀ i, decode w ≠ .ok i) → t.st = .idle) ∧
    (∀ debug node bitrate timeout, decode w = .ok (.init debug node bitrate timeout) →
      t.st = if u.inited then .idle else .begin) ∧
    (∀ timeout, decode w = .ok (.setTimeout timeout) → t.st = .idle) ∧
    (∀ len operand, decode w = .ok (.decode len operand) → t.st = .idle) ∧
    (∀ i mode kind len hdr filt payload, decode w = .ok i → i.request = some (mode, kind, len, hdr, filt, payload) →
      t.st = if u.inited = true ∧ len.toNat ≤ 8 then .filterSet else .idle) := by
  have run {i : Instr} (hd : decode w = .ok i) : exec i u = .next t := (step_eq_exec he hst hc hd).symm.trans h
  refine ⟨fun hnone => ?_, fun _ _ _ _ hd => execInit_st hst (run hd), fun _ hd => ?_, fun _ _ hd => ?_,
    fun i _ _ _ _ _ _ hd hreq => acceptPoll_st hst ((exec_of_request hreq u).symm.trans (run hd))⟩
  · have hrows : ∀ r ∈ opcodeMap, r.selects w = false := fun r hr =>
      Bool.eq_false_iff.2 fun hw => (exists_decode_eq_ok_iff.2 ⟨r, hr, hw⟩).elim hnone
    cases ((step_eq_rejectWord he hst hc hrows).trans (rejectWord_idle hst)).symm.trans h
    exact hst
  · exact ((exec_accepted hst (run hd)).st_of_answered nofun rfl).trans hst
  · exact ((exec_accepted hst (run hd)).st_of_answered nofun rfl).trans hst

end Rows

/-- Settles O26: the invariants give the next state, and each row is the step lemma of its phase. -/
theorem transitionRelation : Obligations.TransitionRelation := by
  intro s u inp hInv he
  obtain ⟨t, h⟩ := invariantStatesNeverStop s hInv (by rw [he]; rfl)
  obtain rfl : s.takeEvent.2 = u := by rw [he]
  have hshort : ∀ f ∈ s.takeEvent.2.rxq, f.len.toNat ≤ MAX_LEN := hInv.takeEvent.framesShort
  simp only [← takeEvent_snd_st s, ← takeEvent_snd_inited s, ← takeEvent_snd_rqMode s, ← takeEvent_snd_rxq s,
    ← takeEvent_snd_timeout s, ← takeEvent_snd_t0 s]
  refine ⟨t, h, fun hst hc => ?_, fun hst w hc => st_of_presented he h hst hc, st_of_begin he h, fun hst hm => ?_,
    fun hst hm => st_of_check he h (.inr ⟨hst, hm⟩), fun hst => st_of_check he h (.inl hst),
    fun hst => st_of_wait he h hst hshort, fun hst => ?_, fun hst => ?_⟩
  · cases (step_eq_next_of_cmd_none he hst hc).symm.trans h
    exact hst
  · cases (step_queried he hst hm).symm.trans h
    rfl
  · cases (step_restore he hst).symm.trans h
    rfl
  · cases (step_answer he hst).symm.trans h
    rfl

/-! ## The runs of a poll (R140) -/

/-- The state after a poll has been answered: the default filter back and the prepared response emitted (R131 to R134). -/
def State.answered (u : State) : State :=
  { u with ftab := [u.defaultEntry], st := .idle, outs := [.respond u.outStatus u.outValue] }

/-- The state with one frame in the queue, as its arrival in an empty queue leaves it (R178). -/
def State.holding (u : State) (f : Frame) : State := { u with rxq := [f] }

section Runs

variable {i0 check last i4 i5 : Inputs} {query waits : List Inputs} {rest tail : List Event}

theorem takeEvent_after {e : Event} (h : s.env = e :: rest) : s.takeEvent = (e, s.after rest) := takeEvent_cons h

/-- The last two steps of every poll. -/
theorem steps_answer (hst : s.st = .matched ∨ s.st = .timedOut ∨ s.st = .errored)
    (henv : s.env = .step i4 :: .step i5 :: rest) : steps 2 s = .next (s.after rest).answered := by
  rw [steps_succ (step_restore (takeEvent_after henv) hst), steps_succ (step_answer (takeEvent_after rfl) rfl)]
  rfl

/-- The last three steps of a poll that finds a frame in WAIT. -/
theorem steps_frame_answer {v : Value} (hst : s.st = .wait) (hq : s.rxq = f :: q)
    (hv : decodeBytes f.data f.len.toNat = some v) (henv : s.env = .step last :: .step i4 :: .step i5 :: rest) :
    steps 3 s = .next ((s.after rest).matched q v).answered := by
  rw [steps_succ (step_wait_frame (takeEvent_after henv) hst hq hv), steps_answer (.inl rfl) rfl]
  rfl

/-- The last three steps of a poll that finds the deadline passed. -/
theorem steps_deadline_answer (hst : s.st = .wait) (hq : s.rxq = []) (hpassed : s.timeout ≤ last.now - s.t0)
    (henv : s.env = .step last :: .step i4 :: .step i5 :: rest) :
    steps 3 s = .next (s.after rest).expired.answered := by
  rw [steps_succ (step_wait_deadline (takeEvent_after henv) hst hq hpassed), steps_answer (.inr (.inl rfl)) rfl]
  rfl

/-- A frame with the identifier of the one filter entry is queued where nothing is (R178). -/
theorem step_arrival {id : CanId} (henv : s.env = .arrive f :: rest) (hq : s.rxq = []) (htab : s.ftab = [⟨id, MASK_EXACT⟩])
    (hid : f.id = id) (hlen : f.len.toNat ≤ MAX_LEN) : step s = .next ((s.after rest).holding f) := by
  have hacc : accept (s.after rest).ftab f.id = true := by
    rw [State.after, htab, accept_exact, hid, beq_self_eq_true]
  have hroom : (s.after rest).rxq.length < Config.params.rxqDepth := by
    rw [State.after, hq]
    exact Nat.succ_pos _
  rw [step_arrive henv, arrive_accepted hlen hacc hroom, State.after, hq]
  rfl

/-- Any number of WAIT steps before the deadline only pass (R130), by induction on their number. -/
theorem steps_wait (hst : s.st = .wait) (hq : s.rxq = []) (houts : s.outs = [])
    (hwaits : ∀ j ∈ waits, j.now - s.t0 < s.timeout) (henv : s.env = waits.map Event.step ++ tail) :
    steps waits.length s = .next (s.after tail) := by
  induction waits generalizing s with
  | nil =>
    have hs : s = s.after tail := by
      rw [List.map_nil, List.nil_append] at henv
      rw [State.after, ← henv, ← houts]
    exact congrArg _ hs
  | cons j waits ih =>
    obtain ⟨hj, hwaits⟩ := List.forall_mem_cons.1 hwaits
    have hstep : step s = .next (s.after (waits.map Event.step ++ tail)) :=
      step_wait_keeps (takeEvent_after henv) hst hq hj
    exact (steps_succ hstep).trans (ih hst hq rfl hwaits rfl)

/-- From FILTER_SET to the error check: one step, or two with the query transmitted in between. -/
theorem steps_check (hst : s.st = .filterSet) (hquery : query.length = if s.rqMode = .queryResponse then 1 else 0)
    (henv : s.env = query.map Event.step ++ .step check :: tail) :
    steps (query.length + 1) s = .next ((s.after tail).checked check) := by
  cases hm : s.rqMode with
  | queryResponse =>
    obtain ⟨j, rfl⟩ := List.length_eq_one_iff.1 (hquery.trans (if_pos hm))
    rw [List.length_singleton, steps_succ (step_queried (takeEvent_after henv) hst hm),
      steps_succ (step_check (takeEvent_after rfl) (.inl rfl))]
    rfl
  | passiveListen =>
    obtain rfl := List.length_eq_zero_iff.1 (hquery.trans (if_neg (by simp [hm])))
    exact steps_succ (step_check (takeEvent_after henv) (.inr ⟨hst, hm⟩))

section Accepted

variable {w : CmdWord} {mode : Mode} {kind : Kind} {len : BitVec 8} {hdr filt : CanId} {payload : Value}
  (hst : s.st = .idle) (hinited : s.inited = true) (hc : i0.cmd = some w) (hd : decode w = .ok i)
  (hreq : i.request = some (mode, kind, len, hdr, filt, payload)) (hlen : len.toNat ≤ 8)
include hst hinited hc hd hreq hlen

theorem step_request (henv : s.env = .step i0 :: tail) :
    step s = .next ((s.after tail).requested mode kind len hdr filt payload) :=
  (step_exec henv hst hc hd).trans ((exec_of_request hreq _).trans
    (acceptPoll_legal (u := s.after tail) hst hinited hlen mode kind hdr filt payload))

/-- The steps of a poll up to and with its error check. -/
theorem steps_request_check (hquery : query.length = if mode = .queryResponse then 1 else 0)
    (henv : s.env = .step i0 :: (query.map Event.step ++ .step check :: tail)) :
    steps (query.length + 2) s =
      .next (((s.after tail).requested mode kind len hdr filt payload).checked check) :=
  (steps_succ (step_request hst hinited hc hd hreq hlen henv)).trans (steps_check rfl hquery rfl)

/-- The steps of a poll with no bus error up to a point in its wait, with nothing queued and the deadline not passed. -/
theorem steps_request_wait (hq : s.rxq = []) (hquery : query.length = if mode = .queryResponse then 1 else 0)
    (herr : check.errStatus = 0#8) (hwaits : ∀ j ∈ waits, j.now - check.now < s.timeout)
    (henv : s.env = .step i0 :: (query.map Event.step ++ .step check :: (waits.map Event.step ++ tail))) :
    steps (query.length + 2 + waits.length) s =
      .next (((s.after tail).requested mode kind len hdr filt payload).waiting check.now) := by
  rw [steps_add (steps_request_check hst hinited hc hd hreq hlen hquery henv), checked_of_noError _ herr]
  exact steps_wait rfl hq rfl hwaits rfl

end Accepted

end Runs

/-- Settles O27: the wait, the step that finds the deadline passed, and the answer. -/
theorem pollTimesOutInItsSteps : Obligations.PollTimesOutInItsSteps := by
  intro s i0 check last i4 i5 query waits rest w i mode kind len hdr filt payload hst hinited hq hc hd hreq hlen hquery herr
    hwaits hpassed henv
  have hcount : 4 + query.length + (waits.length + 1) = query.length + 2 + waits.length + 3 := by omega
  rw [hcount, steps_add (steps_request_wait hst hinited hc hd hreq hlen hq hquery herr hwaits henv),
    steps_deadline_answer (s := ((s.after _).requested ..).waiting _) rfl hq hpassed rfl, hst]
  rfl

/-- Settles O28: the wait, the arrival that the poll's filter accepts into the empty queue, and the answer. -/
theorem pollAnswersArrivingFrame : Obligations.PollAnswersArrivingFrame := by
  intro s i0 check last i4 i5 query waits f v rest w i mode kind len hdr filt payload hst hinited hq hc hd hreq hlen hquery
    herr hwaits hid hv henv
  have hcount : 4 + query.length + (waits.length + 1) + 1 = query.length + 2 + waits.length + 4 := by omega
  rw [hcount, steps_add (steps_request_wait hst hinited hc hd hreq hlen hq hquery herr hwaits henv),
    steps_succ (step_arrival (s := ((s.after _).requested ..).waiting _) rfl hq rfl hid (le_of_decodeBytes_eq_some hv)),
    steps_frame_answer rfl rfl hv rfl, hst, hq]
  rfl

/-- Settles O29: the failed error check leads straight to the answer, and no step of it reads the queue. -/
theorem pollStopsAtBusError : Obligations.PollStopsAtBusError := by
  intro s i0 check i4 i5 query rest w i mode kind len hdr filt payload hst hinited hc hd hreq hlen hquery herr henv
  have hcount : 4 + query.length = query.length + 2 + 2 := by omega
  rw [hcount, steps_add (steps_request_check hst hinited hc hd hreq hlen hquery henv), State.checked, if_neg herr,
    steps_answer (.inr (.inr rfl)) rfl, hst]
  rfl

/-- Settles O30: no step before WAIT touches the queue, and the pop looks at no identifier. -/
theorem pollAnswersStaleFrame : Obligations.PollAnswersStaleFrame := by
  intro s i0 check last i4 i5 query f q v rest w i mode kind len hdr filt payload hst hinited hq hc hd hreq hlen hquery herr
    hv henv
  have hcount : 5 + query.length = query.length + 2 + 3 := by omega
  rw [hcount, steps_add (steps_request_check hst hinited hc hd hreq hlen hquery henv), checked_of_noError _ herr]
  exact ⟨_, steps_frame_answer rfl hq hv rfl, rfl, rfl, rfl, rfl, rfl⟩

/-- A legal length fits the latch (R26). -/
theorem toNat_setWidth_of_le {len : BitVec 8} (hlen : len.toNat ≤ 8) : (len.setWidth 4).toNat = len.toNat := by
  rw [BitVec.toNat_setWidth, Nat.mod_eq_of_lt (by omega)]

/-- Settles O31: the frame that comes back is the query frame, the filter `HDR` accepts it, and its bytes decode as the payload
does. -/
theorem loopedQueryIsItsOwnAnswer : Obligations.LoopedQueryIsItsOwnAnswer := by
  intro s i0 i1 check last i4 i5 f t v rest w i kind len hdr payload hst hinited hq hc hd hreq hlen herr henv htwo hout hv
  have hrequest := step_request hst hinited hc hd hreq hlen henv
  rw [steps_succ hrequest, steps_succ (step_queried (takeEvent_after rfl) rfl rfl)] at htwo
  cases htwo
  have hf : f = outFrame hdr kind (len.setWidth 4) (bytes payload) :=
    (OutEvent.tx.inj (List.singleton_injective hout)).symm
  have hown : decodeBytes f.data f.len.toNat = some v := by
    rw [hf, outFrame, decodeBytes_firstBytes, toNat_setWidth_of_le hlen, hv]
  have hid : f.id = hdr := by rw [hf, outFrame]
  rw [steps_succ hrequest, steps_succ (step_queried (takeEvent_after rfl) rfl rfl),
    steps_succ (step_arrival (s := State.queried (((s.after _).requested ..).after _)) rfl hq rfl hid
      (le_of_decodeBytes_eq_some hown)),
    steps_succ (step_check (takeEvent_after rfl) (.inl rfl)), checked_of_noError _ herr]
  exact ⟨_, steps_frame_answer rfl rfl hown rfl, rfl, rfl⟩

end Sys2Proof.Machine
end

section
/-! SUPPORT. SET_TIMEOUT (spec/42_change_timeout.md): its acceptance by a constructed block (R150), the malformed word (R86) and
two in a row (R153). -/

namespace Sys2Proof

variable {w : CmdWord} {r : Row}

/-- A word with a row's opcode that the row does not select, for a reserved bit, is selected by no row (R83, R86). -/
theorem no_row_selects_of_fieldOp (hr : r ∈ opcodeMap) (hop : fieldOp w = fieldOp r.pattern) (h : r.selects w = false) :
    ∀ q ∈ opcodeMap, q.selects w = false := by
  intro q hq
  refine Bool.eq_false_iff.2 fun hqw => ?_
  have distinct : (opcodeMap.map fun r => fieldOp r.pattern).Nodup := by decide
  obtain rfl : q = r := List.inj_on_of_nodup_map distinct hq hr ((fieldOp_of_selects hq hqw).symm.trans hop)
  exact Bool.eq_false_iff.1 h hqw

end Sys2Proof

namespace Sys2Proof.Machine

variable {u : State}

theorem execSetTimeout_constructed (hst : u.st = .idle) (hinited : u.inited = true) (timeout : Word32) :
    execSetTimeout timeout u = .next ({ u with timeout := timeout }.respond .ok 0#64) :=
  (whenIdle_idle _ hst).trans (if_pos hinited)

/-- Settles O32: the acceptance step with its one check, and a malformed word, which no row selects. -/
theorem setTimeoutReplacesTimeout : Obligations.SetTimeoutReplacesTimeout := by
  refine ⟨fun timeout s hst hinited => execSetTimeout_constructed hst hinited timeout,
    fun timeout s hst hinited => execSetTimeout_unconstructed hst hinited timeout, ?_⟩
  intro s u inp w he hst hc hop hsel
  have hnone : ∀ r ∈ opcodeMap, r.selects w = false :=
    no_row_selects_of_fieldOp (r := rowSetTimeout) (by decide) hop hsel
  rw [step_eq_rejectWord he hst hc hnone, rejectWord_idle hst, raise_eq (outs_of_takeEvent he)]

/-- Settles O33: the first SET_TIMEOUT leaves the block constructed and in IDLE, so the second is accepted and writes the same
register. -/
theorem lastSetTimeoutWins : Obligations.LastSetTimeoutWins := by
  intro a b s t hst hinited ht
  obtain ⟨replaces, -, -⟩ := setTimeoutReplacesTimeout
  cases (replaces a s hst hinited).symm.trans ht
  have hsecond := replaces b { s with timeout := a, outs := s.outs ++ [.respond .ok 0#64] } hst hinited
  rwa [List.append_assoc, List.singleton_append] at hsecond

end Sys2Proof.Machine
end

section
/-! SUPPORT. DECODE (spec/43_decode.md): the bytes of the decoded value (R161), what follows from them (R162), and the two answers
of the command (R160, R163). -/

namespace Sys2Proof.Machine

variable {b : Bytes} {n : Nat} {v : Value} {u : State} {len : BitVec 8}

/-! ## The bytes of the decoded value -/

/-- Reading the low `n` bytes of a value gives the value modulo `2^{8n}` (R51, R52). -/
theorem memRead_bytes (v : Value) (hn : n ≤ 8) : memRead (bytes v) 0 n = v.toNat % 2 ^ (8 * n) := by
  induction n with
  | zero => rw [memRead, Nat.mul_zero, Nat.pow_zero, Nat.mod_one]
  | succ n ih =>
    have hbyte : (byteAt (bytes v) n).toNat = v.toNat / 2 ^ (8 * n) % 2 ^ 8 := by
      rw [byteAt_bytes v (by omega), laneByte, BitVec.extractLsb'_toNat, Nat.shiftRight_eq_div_pow]
    rw [memRead, ih (by omega), Nat.zero_add, hbyte, Nat.mul_succ, Nat.pow_add, Nat.mod_mul, Nat.mul_comm (2 ^ (8 * n))]

theorem memRead_eq_carrier (b : Bytes) : memRead b 0 8 = (carrier b).toNat := by
  conv_lhs => rw [← bytes_carrier b, memRead_bytes _ (Nat.le_refl 8)]
  exact Nat.mod_eq_of_lt (carrier b).isLt

/-- The decoded value is the carrier of the zero-filled buffer (R52, R161). -/
theorem decodeBytes_eq_carrier (hn : n ≤ 8) : decodeBytes b n = some (carrier (firstBytes b n)) := by
  rw [decodeBytes_of_le hn, memRead_eq_carrier, BitVec.ofNat_toNat, BitVec.setWidth_eq]

theorem laneByte_carrier_firstBytes (b : Bytes) (n : Nat) {k : Nat} (hk : k < 8) :
    laneByte (carrier (firstBytes b n)) k = if k < n then byteAt b k else 0#8 :=
  (laneByte_carrier _ hk).trans (byteAt_firstBytes b n k hk)

/-- A value is the decoded one exactly when each of its bytes is the byte of the zero-filled buffer (R161). -/
theorem decodeBytes_eq_some_iff_laneByte (hn : n ≤ 8) :
    decodeBytes b n = some v ↔ ∀ k, k < 8 → laneByte v k = if k < n then byteAt b k else 0#8 := by
  rw [decodeBytes_eq_carrier hn, Option.some_inj]
  constructor
  · rintro rfl k hk
    exact laneByte_carrier_firstBytes b n hk
  · intro h
    exact eq_of_laneByte_eq fun k hk => (laneByte_carrier_firstBytes b n hk).trans (h k hk).symm

/-- Settles O36: the sum of the bytes read, and the lanes of the value. -/
theorem decodeFunctionIsLittleEndian : Obligations.DecodeFunctionIsLittleEndian := by
  intro b n hn
  obtain ⟨v, hv, hsum⟩ := exists_decodeBytes_eq_sum b hn
  exact ⟨v, hv, hsum, (decodeBytes_eq_some_iff_laneByte hn).1 hv⟩

/-! ## Properties of the function (R162) -/

theorem decodeBytes_zero (b : Bytes) : decodeBytes b 0 = some 0#64 :=
  (decodeBytes_eq_some_iff_laneByte (Nat.zero_le 8)).2 fun _ _ => BitVec.extractLsb'_zero

/-- The `n` bytes are read back as the low `n` lanes of the value. -/
theorem byteAt_eq_of_decodeBytes_eq {c : Bytes} (hn : n ≤ 8) (h : decodeBytes b n = decodeBytes c n) {k : Nat} (hk : k < n) :
    byteAt b k = byteAt c k := by
  have hc := decodeBytes_eq_carrier (b := c) hn
  have lanes := (decodeBytes_eq_some_iff_laneByte hn).1 hc k (by omega)
  have lanes' := (decodeBytes_eq_some_iff_laneByte hn).1 (h.trans hc) k (by omega)
  rw [if_pos hk] at lanes lanes'
  exact lanes'.symm.trans lanes

/-- A zero byte after the last one does not change the value. -/
theorem decodeBytes_succ_of_byteAt_zero (hn : n < 8) (hzero : byteAt b n = 0#8) : decodeBytes b (n + 1) = decodeBytes b n := by
  have hbuffer : firstBytes b (n + 1) = firstBytes b n := by
    refine eq_of_byteAt_eq fun k hk => ?_
    rw [byteAt_firstBytes _ _ _ hk, byteAt_firstBytes _ _ _ hk]
    obtain hlt | rfl | hgt := Nat.lt_trichotomy k n
    · rw [if_pos hlt, if_pos (by omega)]
    · rw [if_pos (by omega), if_neg (by omega), hzero]
    · rw [if_neg (by omega), if_neg (by omega)]
  rw [decodeBytes_eq_carrier hn, decodeBytes_eq_carrier (Nat.le_of_lt hn), hbuffer]

/-- One byte decodes to itself. -/
theorem decodeBytes_one (b : Bytes) : decodeBytes b 1 = some ((byteAt b 0).setWidth 64) := by
  obtain ⟨v, hv, hsum⟩ := exists_decodeBytes_eq_sum b (n := 1) (by decide)
  rw [Finset.sum_range_one, Nat.mul_zero, Nat.pow_zero, Nat.mul_one] at hsum
  rw [hv, Option.some_inj]
  apply BitVec.eq_of_toNat_eq
  rw [hsum, BitVec.toNat_setWidth_of_le (by decide)]

theorem toNat_lt_of_decodeBytes (h : decodeBytes b n = some v) : v.toNat < 2 ^ (8 * n) := by
  obtain ⟨w, hw, hsum⟩ := exists_decodeBytes_eq_sum b (le_of_decodeBytes_eq_some h)
  obtain rfl : w = v := Option.some_inj.1 (hw.symm.trans h)
  rw [hsum, ← memRead_eq_sum]
  exact memRead_lt b n

theorem laneByte_sentinel {k : Nat} (hk : k < 8) : laneByte SENTINEL k = 0xFF#8 := by
  interval_cases k <;> rfl

/-- Every byte of the sentinel is 0xFF, so no byte of it is one of the zero fill. -/
theorem decodeBytes_eq_sentinel_iff :
    decodeBytes b n = some SENTINEL ↔ n = 8 ∧ ∀ k, k < 8 → byteAt b k = 0xFF#8 := by
  constructor
  · intro h
    have hn : n ≤ 8 := le_of_decodeBytes_eq_some h
    have lanes := (decodeBytes_eq_some_iff_laneByte hn).1 h
    have hlast : 7 < n := by
      by_contra hlt
      have hseven := lanes 7 (by decide)
      rw [if_neg hlt] at hseven
      exact absurd hseven (by decide)
    refine ⟨by omega, fun k hk => ?_⟩
    rw [← laneByte_sentinel hk, lanes k hk, if_pos (by omega)]
  · rintro ⟨rfl, hbytes⟩
    refine (decodeBytes_eq_some_iff_laneByte (Nat.le_refl 8)).2 fun k hk => ?_
    rw [laneByte_sentinel hk, if_pos hk, hbytes k hk]

theorem decodeBytes_bytes (v : Value) (hn : n ≤ 8) :
    decodeBytes (bytes v) n = some (v &&& BitVec.ofNat 64 (2 ^ (8 * n) - 1)) :=
  (decodeBytes_eq_carrier hn).trans (congrArg some (carrier_firstBytes v n))

theorem decodeBytes_bytes_eight (v : Value) : decodeBytes (bytes v) 8 = some v :=
  (decodeBytes_bytes v (Nat.le_refl 8)).trans (congrArg some BitVec.and_allOnes)

/-- Settles O37: each property follows from the lanes of the value or from its sum. -/
theorem decodeFunctionProperties : Obligations.DecodeFunctionProperties := by
  refine ⟨decodeBytes_zero, fun _ _ _ hn h _ => byteAt_eq_of_decodeBytes_eq hn h, fun b hfirst hsecond => ?_,
    fun _ _ _ => toNat_lt_of_decodeBytes, fun _ _ => decodeBytes_eq_sentinel_iff, decodeBytes_bytes_eight,
    fun v _ => decodeBytes_bytes v⟩
  have hone : decodeBytes b 1 = some 42#64 := by
    rw [decodeBytes_one, hfirst]
    rfl
  exact ⟨hone, (decodeBytes_succ_of_byteAt_zero (by decide) hsecond).trans hone⟩

/-! ## The command (R160, R163) -/

theorem execDecode_of_decodeBytes {operand : Value} (hst : u.st = .idle) (h : decodeBytes (bytes operand) len.toNat = some v) :
    execDecode len operand u = .next (u.respond .ok v) := by
  rw [execDecode, whenIdle_idle _ hst, h]

/-- Settles O34: the byte the function reads at index `k` is lane `k` of the operand, and the answer is the step's one effect. -/
theorem decodeCommandAnswersSum : Obligations.DecodeCommandAnswersSum := by
  intro len operand s hst hlen
  obtain ⟨v, hv, hsum⟩ := exists_decodeBytes_eq_sum (bytes operand) hlen
  refine ⟨v, hsum.trans (Finset.sum_congr rfl fun k hk => ?_), execDecode_of_decodeBytes hst hv⟩
  have hk8 : k < 8 := Nat.lt_of_lt_of_le (Finset.mem_range.1 hk) hlen
  rw [byteAt_bytes operand hk8, laneByte]

/-- Settles O35: a length above 8 leaves the function without a value, which the command answers as a failure. -/
theorem decodeOfLongLengthIsIllegal : Obligations.DecodeOfLongLengthIsIllegal :=
  ⟨fun _ operand _ hst hlen => execDecode_tooLong hst hlen operand, fun _ _ hn => decodeBytes_of_gt hn⟩

end Sys2Proof.Machine
end

section
/-! SUPPORT. The filter and the arrivals (spec/44_setfilter.md): what a table accepts (R170, R171, R180), the filter
micro-operations (R172 to R175) and what an arrival does in any state (R178, R179, R196). -/

namespace Sys2Proof.Machine

variable {p : Params} {s u : State} {f : Frame} {id mask : CanId}

/-! ## What a table accepts -/

theorem accept_iff (table : List FilterEntry) (x : CanId) :
    accept table x = true ↔ ∃ e ∈ table, x &&& e.mask = e.id &&& e.mask := by
  simp only [accept, List.any_eq_true, FilterEntry.accepts, beq_iff_eq]

theorem accept_singleton_iff (e : FilterEntry) (x : CanId) : accept [e] x = true ↔ x &&& e.mask = e.id &&& e.mask := by
  simp only [accept_iff, List.mem_singleton, exists_eq_left]

/-- Settles O39: a table accepts what some entry accepts, and the exact mask leaves every bit to compare. -/
theorem filterAcceptsByMask : Obligations.FilterAcceptsByMask :=
  ⟨fun id mask => accept_singleton_iff ⟨id, mask⟩,
    fun id x => (Bool.eq_iff_iff.1 (accept_exact id x)).trans beq_iff_eq, accept_iff, accept_nil⟩

/-! ## The filter micro-operations -/

theorem hasRoom_eq_false {α : Type} {l : List α} {cap : Nat} (hfull : cap ≤ l.length) : hasRoom l cap = false :=
  Bool.eq_false_iff.2 (mt (hasRoom_iff l cap).1 (Nat.not_lt.2 hfull))

theorem addFilter_of_room (hroom : s.ftab.length < p.nfilt) :
    s.addFilter p id mask = some { s with ftab := s.ftab ++ [⟨id, mask⟩] } := if_pos ((hasRoom_iff _ _).2 hroom)

theorem addFilter_of_full (hfull : p.nfilt ≤ s.ftab.length) : s.addFilter p id mask = none :=
  if_neg (Bool.eq_false_iff.1 (hasRoom_eq_false hfull))

/-- Settles O40: SETFILTER adds to the table it has just cleared, which has room; ADDFILTER alone turns on the room it finds. -/
theorem setFilterReplacesTable : Obligations.SetFilterReplacesTable := fun p s id _ =>
  ⟨setFilter_eq s p id, setFilterDefault_eq s p, rfl, addFilter_of_room, addFilter_of_full⟩

/-! ## Arrivals -/

theorem arrive_full (hlen : f.len.toNat ≤ MAX_LEN) (hfull : p.rxqDepth ≤ u.rxq.length) : u.arrive p f = .next u := by
  rw [State.arrive, if_pos hlen, if_neg (by simp [hasRoom_eq_false hfull])]

theorem arrive_tooLong (hlen : MAX_LEN < f.len.toNat) : u.arrive p f = .refused .arrivalLength :=
  if_neg (Nat.not_le.2 hlen)

/-- Settles O41: the arrival rule does not look at `st`, so the step is the one outcome its length, filter and room select. -/
theorem arrivalQueuesAcceptedFrame : Obligations.ArrivalQueuesAcceptedFrame := by
  intro s u f he
  have hstep : step s = u.arrive Config.params f := step_of_takeEvent he
  rw [hstep]
  refine ⟨arrive_accepted, fun hlen hdrop => ?_, arrive_tooLong⟩
  obtain hacc | hfull := hdrop
  · exact arrive_rejected hlen hacc
  · exact arrive_full hlen hfull

/-- Settles O45: by I-b the table of an unconstructed block is empty, and the empty table accepts nothing. -/
theorem unconstructedBlockAcceptsNoFrame : Obligations.UnconstructedBlockAcceptsNoFrame := by
  intro s u f hInv hinited he hlen
  obtain rfl : s.takeEvent.2 = u := by rw [he]
  obtain ⟨hempty, _⟩ := hInv.unconstructed hinited
  have hacc : accept s.takeEvent.2.ftab f.id = false := by rw [takeEvent_snd_ftab, hempty, accept_nil]
  exact (step_of_takeEvent he).trans (arrive_rejected hlen hacc)

end Sys2Proof.Machine
end

section
/-! SUPPORT. Failures (spec/60_exceptions.md): the sentinel rule R217, kept by each way a step can emit a response. -/

namespace Sys2Proof.Machine

variable {p : Params} {inp : Inputs} {s t u : State}

/-- An output event keeps R217: if it is a response with a status other than OK, its value is the sentinel. -/
def OutEvent.SentinelRule : OutEvent → Prop
  | .respond status value => status ≠ .ok → value = SENTINEL
  | .tx _ => True
  | .begin _ _ => True

/-- The output events of the step that led to this state keep R217. -/
def State.SentinelRule (s : State) : Prop := ∀ e ∈ s.outs, e.SentinelRule

theorem sentinelRule_of_outs_nil (h : t.outs = []) : t.SentinelRule := by simp [State.SentinelRule, h]

theorem State.SentinelRule.congr (hu : u.SentinelRule) (h : t.outs = u.outs) : t.SentinelRule := by
  rwa [State.SentinelRule, h]

/-- The rule is judged event by event, so a step only answers for the one it adds. -/
theorem State.SentinelRule.append {e : OutEvent} (hu : u.SentinelRule) (h : t.outs = u.outs ++ [e])
    (he : e.SentinelRule) : t.SentinelRule := by
  rw [State.SentinelRule, h, List.forall_mem_append, List.forall_mem_singleton]
  exact ⟨hu, he⟩

/-- A failure decided at once carries the sentinel whatever the state. -/
theorem State.SentinelRule.raise (hu : u.SentinelRule) (status : Status) : (u.raise status).SentinelRule :=
  hu.append (u.raise_outs status) fun _ => rfl

/-- Every response of an acceptance step keeps the rule, without the invariants (R91). -/
theorem Accepted.sentinelRule {i : Instr} (h : Accepted u i t) (hu : u.SentinelRule) : t.SentinelRule := by
  cases h with
  | answered _ _ _ hvalue => exact hu.append rfl hvalue
  | construction _ _ _ _ _ => exact hu.append rfl trivial
  | timeout _ _ => exact hu.append rfl (absurd rfl)
  | request _ _ _ _ _ _ _ _ _ _ => exact hu.congr rfl

/-- The response that waits in FILTER_RESTORED keeps the rule (R28, R134). -/
theorem State.Inv.prepared_sentinelRule (h : u.Inv) (hst : u.st = .filterRestored) :
    (OutEvent.respond u.outStatus u.outValue).SentinelRule := by
  intro hne
  obtain hok | ⟨_, hvalue⟩ | ⟨_, hvalue⟩ := h.restoredPrepared hst
  · exact absurd hok hne
  · exact hvalue
  · exact hvalue

/-- Of the transitions of R138 only the last of a poll needs the invariants: it emits a response prepared earlier (R134). -/
theorem Move.sentinelRule (hm : Move p inp u t) (hInv : u.Inv) (hu : u.SentinelRule) : t.SentinelRule := by
  cases hm with
  | beginWaits _ _ => exact hu
  | beginCompletes _ _ _ => exact hu.append rfl (absurd rfl)
  | beginFails _ _ _ => exact hu.append rfl fun _ => rfl
  | query _ _ => exact hu.append rfl trivial
  | noError _ _ => exact hu.congr rfl
  | busError _ _ => exact hu.append rfl trivial
  | frame _ _ _ _ _ _ => exact hu.congr rfl
  | deadline _ _ _ => exact hu.congr rfl
  | keepWaiting _ _ _ => exact hu
  | restore _ => exact hu.congr rfl
  | answer hst => exact hu.append rfl (hInv.prepared_sentinelRule hst)

theorem step_sentinelRule (hInv : s.Inv) (h : step s = .next t) : t.SentinelRule := by
  have hu : s.takeEvent.2.SentinelRule := sentinelRule_of_outs_nil (takeEvent_snd_outs s)
  obtain ⟨_, rfl⟩ | ⟨f, _, ha⟩ | ⟨inp, _, hcase⟩ := step_cases h
  · exact sentinelRule_of_outs_nil rfl
  · exact hu.congr (arrive_st_outs ha).2
  · obtain ⟨_, _, rfl⟩ | ⟨w, i, _, _, _, ha⟩ | ⟨w, e, _, _, _, rfl⟩ | ⟨_, hm⟩ := hcase
    · exact hu
    · exact ha.sentinelRule hu
    · exact hu.raise _
    · exact hm.sentinelRule hInv.takeEvent hu

/-- Settles O46: a failure is answered at once with the sentinel, or was prepared with it, which the invariants hold until the
answer. -/
theorem failureCarriesSentinel : Obligations.FailureCarriesSentinel := fun _ _ _ _ hInv h hmem =>
  step_sentinelRule hInv h _ hmem

end Sys2Proof.Machine
end
